-- ==== Sys2Proof/Word.lean ====
section
/-! DEFINITION. The widths the block works with (30_encoding.md R45, R46, R56). -/

namespace Sys2Proof

/-- One command word: 64 bits, bit 0 the least significant (R8, R45). -/
abbrev CmdWord := BitVec 64

/-- An 8-bit value: a FREQ or DUTY selector, TMODE, or STATUS as the STAT port shows it. -/
abbrev Byte := BitVec 8

/-- A 32-bit value: CLKDIV, DATA, or the pattern of a transaction. -/
abbrev Word := BitVec 32

/-- The 6-bit LEN field of a command word and the bit count of a transaction (R46, R56). -/
abbrev Count := BitVec 6

/-- `mask_N(v)` of R9: the low `n` bits of `v`. -/
def maskN (n v : Nat) : Nat := v &&& (2 ^ n - 1)

end Sys2Proof
end

