-- ==== Sys2Proof/Config.lean ====
section
/-! DEFINITION. The implementation parameters of 00_scope.md R7, and the values the spec leaves open as opaque
constants, of which nothing can be proved. -/

namespace Sys2Proof.Config

/-- `REF_CLK_HZ` (R7). -/
abbrev refClkHz : Nat := 80000000

/-- `PRE_DIVIDER`, the same for every frequency row (R7). -/
abbrev preDivider : Nat := 10

/-- `INTERMEDIATE_CLK_HZ` = `REF_CLK_HZ / PRE_DIVIDER` (R7). -/
abbrev intermediateClkHz : Nat := refClkHz / preDivider

/-- `BURST_BITS`, the bit count of every transaction (R7), as the XFER record carries it (R56). -/
abbrev burstBits : Count := 32#6

/-- `PAT_HIGH` (R7). -/
abbrev patHigh : Word := 0xFFFFFFFF#32

/-- `PAT_LOW` (R7). -/
abbrev patLow : Word := 0x00000000#32

/-- `CMD_WIDTH`, the width of the command value (R7). -/
abbrev cmdWidth : Nat := 32

/-- `LEN_MAX`, the largest legal bit length (R7). -/
abbrev lenMax : Nat := cmdWidth

/-- `W_PRE` (R7). -/
abbrev wPre : Nat := 8

/-- `W_N` (R7). -/
abbrev wN : Nat := 8

/-- `W_H` (R7). -/
abbrev wH : Nat := 8

/-- `W_L` (R7). -/
abbrev wL : Nat := 8

/-- `TMODE_VALUE`, the transport mode the configurator writes (R7, R66). -/
abbrev tmodeValue : Byte := 0x41#8

/-- The frequency selector of the reference carrier (R7, R58). -/
abbrev refFreq : Byte := 36#8

/-- The duty selector of the reference carrier (R7, R58). -/
abbrev refDuty : Byte := 25#8

/-- `FULL_DUTY_WAVEFORM` (R7, R94), OPEN: the level of the transport's clock output under a CLKDIV whose H exceeds N, in
the `k`-th transaction since power-on (a reset does not start the count again), `tick` reference clock periods after its
start. DESIGN CHOICE (log 15): nothing constrains its value, so it is safe for a claim about one run; that it depends on
these arguments alone is the model's. -/
opaque fullDutyWaveform (clkdiv : Word) (k tick : Nat) : Bool

/-- `INTER_TX_GAP` (R7, R93), OPEN: the gap in seconds before the `k`-th transaction of a command. The spec has any
non-negative time; that it is a rational number of seconds, so that irrational lengths are left out, and that it depends
on `k` alone, is the model's choice (DESIGN CHOICE, log 16). Unsafe for a claim that rests on a gap being rational;
otherwise nothing constrains it. -/
opaque interTxGap (k : Nat) : NNRat

/-- What the output shows during a transaction under a transport mode that the block never writes and whose output
phase is enabled, in the `k`-th transaction since power-on: the spec gives no reading of such a mode (R23, R24). DESIGN
CHOICE (log 17), safe for a claim about one run. -/
opaque otherModeOutput (tmode : Byte) (k tick : Nat) : Bool

/-- What the output shows `tick` reference clock periods after the start of a transaction that a reset has cut short at
tick `cut` (R110: not specified). The transaction is the `k`-th since power-on (a reset does not start the count again),
with its record and the registers it runs under. DESIGN CHOICE (log 18): nothing constrains its value, so it is safe for a
claim about one run; that two cut transactions alike in all these arguments show the same is the model's, and unsafe. -/
opaque cutTransactionPin (count : Count) (pattern clkdiv : Word) (tmode : Byte) (k cut tick : Nat) : Bool

end Sys2Proof.Config
end

