-- ==== Sys2Proof/Syntax.lean ====
section
/-! DEFINITION. The two commands of spec/opcode_table.json, one constructor per row, and the assembler's lines
(30_encoding.md R46, R57, R58). -/

namespace Sys2Proof

/-- A command, with the operand fields of R46 as the word carries them. -/
inductive Instr where
  /-- CFG: configure the carrier (R68). -/
  | cfg (freq duty : Byte)
  /-- ENC: configure the carrier and send the low `len` bits of `data` (R75). `len` is the 6-bit field; the encoding
  admits 0 to 32 (R50), which `Instr.wellFormed` checks. -/
  | enc (freq duty : Byte) (len : Count) (data : Word)
deriving DecidableEq, Repr

/-- Why a command word decodes as ILLEGAL: the four cases of R54. -/
inductive Illegal where
  /-- RSV0 or RSV1 is not zero (R52; R54 case 2). -/
  | reservedBits
  /-- OP is 0x0 or 0x3 to 0xF (R47; R54 case 1). -/
  | reservedOp
  /-- A CFG word with LEN or DATA not zero (R52; R54 case 3). -/
  | cfgOperand
  /-- An ENC word with LEN from 33 to 63 (R50; R54 case 4). -/
  | encLength
deriving DecidableEq, Repr

/-- What a 64-bit word decodes to (R44): exactly one of CFG, ENC or ILLEGAL. -/
inductive Decoded where
  | legal (i : Instr)
  | illegal (why : Illegal)
deriving DecidableEq, Repr

/-- One line of the assembler (R57, R58), its operands still plain numbers: the assembler checks their ranges. -/
inductive AsmLine where
  /-- `cfg f<FREQ>, d<DUTY>` -/
  | cfg (freq duty : Nat)
  /-- `enc f<FREQ>, d<DUTY>, <LEN>, <DATA>` -/
  | enc (freq duty len data : Nat)
  /-- `send <DATA>, <LEN>`, the pseudo-instruction of R58 -/
  | send (data len : Nat)
  /-- `.cmd <64-bit literal>`, a raw command word -/
  | cmd (literal : Nat)
deriving DecidableEq, Repr

end Sys2Proof
end

