-- ==== Sys2Proof/WellFormed.lean ====
section
/-! DEFINITION. Which terms of `Instr` stand for a command word (30_encoding.md R46, R50). -/

namespace Sys2Proof

/-- A CFG term is well formed whatever its selectors: every 8-bit value is legal (R48, R49). An ENC term is well
formed when LEN is at most `LEN_MAX` (R50). -/
def Instr.wellFormed : Instr → Bool
  | .cfg _ _ => true
  | .enc _ _ len _ => decide (len.toNat ≤ Config.lenMax)

end Sys2Proof
end

