-- ==== Sys2Proof/Decode.lean ====
section
/-! DEFINITION. The command word: its fields (30_encoding.md R46), the decoder (R53), and after it the encoder and
the assembler's words (R57, R58). -/

namespace Sys2Proof

/-- Field OP, bits 3:0 (R46). -/
def fieldOp (w : CmdWord) : BitVec 4 := w.extractLsb' 0 4

/-- Field RSV0, bits 7:4 (R46). -/
def fieldRsv0 (w : CmdWord) : BitVec 4 := w.extractLsb' 4 4

/-- Field FREQ, bits 15:8 (R46). -/
def fieldFreq (w : CmdWord) : Byte := w.extractLsb' 8 8

/-- Field DUTY, bits 23:16 (R46). -/
def fieldDuty (w : CmdWord) : Byte := w.extractLsb' 16 8

/-- Field LEN, bits 29:24 (R46). -/
def fieldLen (w : CmdWord) : Count := w.extractLsb' 24 6

/-- Field RSV1, bits 31:30 (R46). -/
def fieldRsv1 (w : CmdWord) : BitVec 2 := w.extractLsb' 30 2

/-- Field DATA, bits 63:32 (R46). -/
def fieldData (w : CmdWord) : Word := w.extractLsb' 32 32

/-- OP of CFG (R47). -/
def opCfg : BitVec 4 := 0x1#4

/-- OP of ENC (R47). -/
def opEnc : BitVec 4 := 0x2#4

/-- The decode function of R53, total over 64-bit words (R44); an ILLEGAL word is rejected with the case of R54 that
makes it so, tested in R53's order. -/
def decode (w : CmdWord) : Decoded :=
  if fieldRsv0 w ≠ 0#4 ∨ fieldRsv1 w ≠ 0#2 then .illegal .reservedBits
  else if fieldOp w = opCfg then
    if fieldLen w = 0#6 ∧ fieldData w = 0#32 then .legal (.cfg (fieldFreq w) (fieldDuty w))
    else .illegal .cfgOperand
  else if fieldOp w = opEnc then
    if (fieldLen w).toNat ≤ Config.lenMax then
      .legal (.enc (fieldFreq w) (fieldDuty w) (fieldLen w) (fieldData w))
    else .illegal .encLength
  else .illegal .reservedOp

/-- The command word made of its seven fields, DATA most significant (R46). -/
def wordOf (op rsv0 : BitVec 4) (freq duty : Byte) (len : Count) (rsv1 : BitVec 2) (data : Word) : CmdWord :=
  data ++ rsv1 ++ len ++ duty ++ freq ++ rsv0 ++ op

/-- The command word of an instruction (R46, R47, R52, R68, R75): reserved fields 0, and LEN and DATA 0 in CFG. -/
def encode : Instr → CmdWord
  | .cfg freq duty => wordOf opCfg 0#4 freq duty 0#6 0#2 0#32
  | .enc freq duty len data => wordOf opEnc 0#4 freq duty len 0#2 data

/-- The word of an assembler line, or none where the assembler refuses it: a FREQ or DUTY outside 0..255, a LEN
outside 0..32, a DATA outside 0..2^32-1 (R57), or a raw literal wider than 64 bits. `send <DATA>, <LEN>` is
`enc f36, d25, <LEN>, <DATA>` (R58). -/
def assemble : AsmLine → Option CmdWord
  | .cfg freq duty =>
    if freq < 256 ∧ duty < 256 then some (encode (.cfg (BitVec.ofNat 8 freq) (BitVec.ofNat 8 duty))) else none
  | .enc freq duty len data =>
    if freq < 256 ∧ duty < 256 ∧ len ≤ Config.lenMax ∧ data < 2 ^ Config.cmdWidth then
      some (encode (.enc (BitVec.ofNat 8 freq) (BitVec.ofNat 8 duty) (BitVec.ofNat 6 len) (BitVec.ofNat 32 data)))
    else none
  | .send data len =>
    if len ≤ Config.lenMax ∧ data < 2 ^ Config.cmdWidth then
      some (encode (.enc Config.refFreq Config.refDuty (BitVec.ofNat 6 len) (BitVec.ofNat 32 data)))
    else none
  | .cmd literal => if literal < 2 ^ 64 then some (BitVec.ofNat 64 literal) else none

/-- The command word whose low `nbits` bits are those of `w` and whose other bits are 0. A command word is one 64-bit
value, so there is no byte order to lay it out in (20_memory.md R34). -/
def tableWord (nbits w : Nat) : CmdWord := BitVec.ofNat 64 (w % 2 ^ nbits)

/-- The instruction the decoder reads from a word of the opcode table; none where it decodes as ILLEGAL. -/
def decodeTableWord (nbits w : Nat) : Option Instr :=
  match decode (tableWord nbits w) with
  | .legal i => some i
  | .illegal _ => none

end Sys2Proof
end

