-- ==== Sys2Proof/Machine/Operands.lean ====
section
/-! DEFINITION. What the operand fields of a command select: the frequency row and the duty formula
(40_carrier_configurator.md R60 to R64) and the bits of DATA (41_pulse_encoder.md R72). -/

namespace Sys2Proof.Machine

/-- `freq_row` of R60: `(pre_divider, cycle_count)`; an unrecognized selector gives the 36 kHz row (R61). -/
def freqRow (f : Byte) : Nat × Nat :=
  if f = 36#8 then (Config.preDivider, 222)
  else if f = 38#8 then (Config.preDivider, 210)
  else if f = 40#8 then (Config.preDivider, 200)
  else if f = 56#8 then (Config.preDivider, 143)
  else (Config.preDivider, 222)

/-- `high_of` of R62: the high count for cycle count `c`; an unrecognized selector takes the 25 % formula (R64). -/
def highOf (c : Nat) (d : Byte) : Nat :=
  if d = 25#8 then c >>> 2
  else if d = 33#8 then c / 3
  else if d = 50#8 then c >>> 1
  else if d = 100#8 then c
  else c >>> 2

/-- `timing` of R63: `(pre_divider, cycle_count, high_count)`, the duty formula applied to the resolved cycle count. -/
def timing (f d : Byte) : Nat × Nat × Nat :=
  ((freqRow f).1, (freqRow f).2, highOf (freqRow f).2 d)

/-- `bit(data, pos)` of R72. -/
def bitAt (data : Word) (pos : Nat) : Fin 2 := if data.getLsbD pos then 1 else 0

end Sys2Proof.Machine
end

