-- ==== Sys2Proof/Machine/State.lean ====
section
/-! DEFINITION. The state of the system (10_state.md R13) as plain data, with the environment's inputs beside it, and
the state after reset (70_reset_and_hazards.md R109). -/

namespace Sys2Proof.Machine

/-- Reasons the machine stops with a fault. There is none, and this is safe: the block's only faults are the two sticky
STATUS bits, after which it goes on (R12, R101, R102), and no output operation can fail (R96). See log 14. -/
inductive Fault where
deriving DecidableEq, Repr

/-- Reasons an instruction is refused. -/
inductive Refusal where
  /-- Would be raised by an arm of `exec` for an instruction without a meaning; no arm raises it: both instructions
  have their meaning. Safe. -/
  | notModelled (mnemonic : String)
deriving DecidableEq, Repr

/-- An output event (R11), with the record it carries (R56). -/
inductive Event where
  /-- `WRMODE(m)`: a transport-mode write (R85). -/
  | wrmode (m : Byte)
  /-- `WRCLK(v)`: a clock-divider write (R86). -/
  | wrclk (v : Word)
  /-- `XFER(n, p)`: a transaction of `n` bits with pattern `p` (R87). -/
  | xfer (n : Count) (p : Word)
deriving DecidableEq, Repr

/-- SEQ, the encoder's sequencer state (R27); `half` is 0 for the first transaction of a bit and 1 for the second. -/
inductive Seq where
  /-- No command is running; the command port accepts a word. -/
  | idle
  /-- The next event is the transaction for `half` of bit `pos`. -/
  | issue (pos : Nat) (half : Fin 2)
  /-- That transaction has been emitted and TRANSPORT has not yet signalled its completion. -/
  | wait (pos : Nat) (half : Fin 2)
deriving DecidableEq, Repr

/-- The stored bits of STATUS (R25); BUSY is not stored (R29). -/
structure Status where
  /-- STATUS bit 0. -/
  illegal : Bool
  /-- STATUS bit 1. -/
  undefLen : Bool
deriving DecidableEq, Repr

/-- One move of one agent (R6). DESIGN CHOICE (log 3): the spec lets the agents interleave freely; a list of turns says
which one moves at each step. Safe for claims about every list. -/
inductive Turn where
  /-- HOST presents its next command word, if the command port accepts one (R80). -/
  | host
  /-- HOST reads STAT (R25, R38). -/
  | hostStat
  /-- BLOCK issues its next transaction, if it has one to issue (R76). -/
  | block
  /-- TRANSPORT signals ACK for the transaction in flight, and BLOCK takes its completion step (R77, R88). -/
  | transport
  /-- The block is reset (R109, R110). -/
  | reset
deriving DecidableEq, Repr

/-- The environment of the block. DESIGN CHOICE (logs 2, 3, 7): these are the MODEL's fields, not the spec's. -/
structure Env where
  /-- The command words HOST has still to present, oldest first. -/
  cmd : List CmdWord
  /-- Which agent moves at the next steps, soonest first. -/
  turns : List Turn
  /-- The values HOST has read on the STAT port, oldest first. -/
  statReads : List Byte
deriving DecidableEq, Repr

/-- The state of the system: exactly the fields of R13, and the environment. -/
structure State where
  /-- CLKDIV, the transport's clock-divider register (R17). -/
  clkdiv : Word
  /-- TMODE, the transport's mode register (R23). -/
  tmode : Byte
  /-- STATUS, the sticky fault bits (R25). -/
  status : Status
  /-- SEQ (R27). -/
  seq : Seq
  /-- DATA_L, the latched command value (R28). -/
  dataL : Word
  /-- LEN_L, the latched bit length, 0 to 32 (R28; `State.Inv` says the bound). -/
  lenL : Nat
  /-- TRACE, the events emitted since reset, oldest first (R11). -/
  trace : List Event
  /-- What HOST, TRANSPORT and the reset line do next, and what HOST has read (the model's own). -/
  env : Env
deriving DecidableEq, Repr

/-- The state after reset: every field of R13 as R109 gives it. The environment is empty: no word to present, no turn
listed, nothing read (DESIGN CHOICE, logs 2, 3 and 7). -/
def State.reset : State where
  clkdiv := 0x00000000#32
  tmode := 0x00#8
  status := { illegal := false, undefLen := false }
  seq := .idle
  dataL := 0#32
  lenL := 0
  trace := []
  env := { cmd := [], turns := [], statReads := [] }

end Sys2Proof.Machine
end

