-- ==== Sys2Proof/Machine/Flags.lean ====
section
/-! DEFINITION. The bits of STATUS (10_state.md R25, R29) and the fields of CLKDIV and TMODE (R17, R23). -/

namespace Sys2Proof.Machine

/-- BUSY: the view `SEQ != Idle` (R29). -/
def State.busy (s : State) : Bool :=
  match s.seq with
  | .idle => false
  | .issue _ _ => true
  | .wait _ _ => true

/-- STATUS as the STAT port shows it: bit 0 ILLEGAL, bit 1 UNDEF_LEN, bit 2 BUSY, bits 7:3 read as 0 (R25). -/
def State.stat (s : State) : Byte :=
  0#5 ++ BitVec.ofBool s.busy ++ BitVec.ofBool s.status.undefLen ++ BitVec.ofBool s.status.illegal

/-- CLKDIV.PRE, bits 31:24 (R17). -/
def clkPre (v : Word) : Byte := v.extractLsb' 24 8

/-- CLKDIV.N, bits 23:16 (R17). -/
def clkN (v : Word) : Byte := v.extractLsb' 16 8

/-- CLKDIV.H, bits 15:8 (R17). -/
def clkH (v : Word) : Byte := v.extractLsb' 8 8

/-- CLKDIV.L, bits 7:0 (R17). -/
def clkL (v : Word) : Byte := v.extractLsb' 0 8

/-- TMODE.DOUT_EN, bit 0: output phase enabled (R23). -/
def tmodeDoutEn (m : Byte) : Bool := m.getLsbD 0

/-- TMODE.DIN_EN, bit 1: input phase enabled (R23). -/
def tmodeDinEn (m : Byte) : Bool := m.getLsbD 1

/-- TMODE.CMD_EN, bit 2: command phase enabled (R23). -/
def tmodeCmdEn (m : Byte) : Bool := m.getLsbD 2

/-- TMODE.ADDR_EN, bit 3: address phase enabled (R23). -/
def tmodeAddrEn (m : Byte) : Bool := m.getLsbD 3

/-- TMODE.DUMMY_EN, bit 4: dummy-cycle phase enabled (R23). -/
def tmodeDummyEn (m : Byte) : Bool := m.getLsbD 4

/-- TMODE.CS_TIM_EN, bit 5: chip-select setup and hold timing enabled (R23). -/
def tmodeCsTimEn (m : Byte) : Bool := m.getLsbD 5

/-- TMODE.MSB_FIRST, bit 6: bits of a pattern are sent most significant first (R23). -/
def tmodeMsbFirst (m : Byte) : Bool := m.getLsbD 6

/-- TMODE bit 7, reserved (R23). -/
def tmodeReserved (m : Byte) : Bool := m.getLsbD 7

end Sys2Proof.Machine
end

