-- ==== Sys2Proof/Machine/Ops.lean ====
section
/-! DEFINITION. The named operations over the state: the three output operations (45_transport_interface.md R85 to
R87), the sequencer and latch writes (10_state.md R27, R28), raising a fault (60_exceptions.md R101), reset
(70_reset_and_hazards.md R109, R110), and the environment's ports (20_memory.md R33). -/

namespace Sys2Proof.Machine

/-- `Emit(e)` of R10, on the trace: appends the event. -/
def State.emit (e : Event) (s : State) : State := { s with trace := s.trace ++ [e] }

/-- The output operation WRMODE (R85): the event, and TMODE replaced whole, in the same step. -/
def State.wrmode (m : Byte) (s : State) : State := { s.emit (.wrmode m) with tmode := m }

/-- The output operation WRCLK (R86): the event, and CLKDIV replaced whole, in the same step. -/
def State.wrclk (v : Word) (s : State) : State := { s.emit (.wrclk v) with clkdiv := v }

/-- The output operation XFER (R87): the event; that it is outstanding is SEQ's to say (R30). -/
def State.xfer (n : Count) (p : Word) (s : State) : State := s.emit (.xfer n p)

/-- A write of SEQ (R27). -/
def State.setSeq (q : Seq) (s : State) : State := { s with seq := q }

/-- The latches DATA_L and LEN_L, written when an ENC command is accepted (R28). -/
def State.latch (data : Word) (len : Nat) (s : State) : State := { s with dataL := data, lenL := len }

/-- The two faults the block records (R98). -/
inductive FaultBit where
  | illegal
  | undefLen
deriving DecidableEq, Repr

/-- `raise Fault(k)` (R10, R101): taking a fault sets its sticky STATUS bit and does nothing else: nothing is saved, no
mode changes and control goes nowhere. There is no return from a fault (R102): only `State.resetBlock` clears a bit. -/
def State.raiseFault (k : FaultBit) (s : State) : State :=
  match k with
  | .illegal => { s with status := { s.status with illegal := true } }
  | .undefLen => { s with status := { s.status with undefLen := true } }

/-- Reset (R109, R110): every field of R13 takes its reset value, whatever is running. The words HOST has still to
present, the turns and what HOST has read are not the block's and stay (DEDUCED, log 10). -/
def State.resetBlock (s : State) : State := { State.reset with env := s.env }

/-- The command port (R33, R80): a word takes effect only while SEQ is Idle; while the block is busy there is no step
on the port, so nothing changes (log 8). -/
def whenIdle (effect : State → State) (s : State) : Host.Outcome State Fault Refusal :=
  match s.seq with
  | .idle => .next (effect s)
  | .issue _ _ => .next s
  | .wait _ _ => .next s

/-- The word HOST presents on the CMD port, if it has one: where the machine fetches its next instruction. -/
def State.presented (s : State) : Option CmdWord := s.env.cmd.head?

/-- HOST's words once the one it presents has been accepted (R43: a word is consumed in the step that accepts it). -/
def State.popCmd (s : State) : State := { s with env := { s.env with cmd := s.env.cmd.tail } }

/-- One more word for HOST to present, before the others. -/
def State.pushCmd (w : CmdWord) (s : State) : State := { s with env := { s.env with cmd := w :: s.env.cmd } }

/-- The turns left once the next one has been taken. -/
def State.popTurn (s : State) : State := { s with env := { s.env with turns := s.env.turns.tail } }

/-- One more turn, before the others. -/
def State.pushTurn (t : Turn) (s : State) : State := { s with env := { s.env with turns := t :: s.env.turns } }

/-- The agent that moves next: the first turn listed; with none listed, HOST while SEQ is Idle and BLOCK otherwise
(which waits in `Wait`: R77). DESIGN CHOICE, log 3. -/
def State.nextTurn (s : State) : Turn :=
  match s.env.turns, s.seq with
  | t :: _, _ => t
  | [], .idle => .host
  | [], .issue _ _ => .block
  | [], .wait _ _ => .block

/-- HOST reads the STAT port (R25, R38): it receives STATUS, and nothing else changes. -/
def State.readStat (s : State) : State := { s with env := { s.env with statReads := s.env.statReads ++ [s.stat] } }

end Sys2Proof.Machine
end

