-- ==== Sys2Proof/Machine/Carrier.lean ====
section
/-! DEFINITION. The Carrier Configurator (40_carrier_configurator.md): the CLKDIV value (R65), the configuration
sequence (R67) and the command CFG (R68). -/

namespace Sys2Proof.Machine

/-- `pack_clkdiv` of R65: each value minus-one encoded where R65 says so, masked to its field and shifted to its place. -/
def packClkdiv (pre cyc high : Nat) : Word :=
  BitVec.ofNat 32
    ((maskN Config.wPre (pre - 1) <<< 24) ||| (maskN Config.wN (cyc - 1) <<< 16) |||
      (maskN Config.wH high <<< 8) ||| (maskN Config.wL 0 <<< 0))

/-- The CLKDIV value of a selector pair: `pack_clkdiv(timing(f, d))`. -/
def clkdivOf (f d : Byte) : Word := packClkdiv (timing f d).1 (timing f d).2.1 (timing f d).2.2

/-- `configure(S, f, d)` of R67: WRMODE first, then WRCLK (90_conflicts.md C1). -/
def State.configure (f d : Byte) (s : State) : State := (s.wrmode Config.tmodeValue).wrclk (clkdivOf f d)

/-- CFG (R68): the configuration sequence and nothing else. -/
def execCfg (freq duty : Byte) (s : State) : Host.Outcome State Fault Refusal :=
  whenIdle (State.configure freq duty) s

end Sys2Proof.Machine
end

