-- ==== Sys2Proof/Machine/Pulse.lean ====
section
/-! DEFINITION. The Pulse Encoder (41_pulse_encoder.md): the burst pair and the burst sequence (R73, R74), the command
ENC (R75, R79), and the sequencer's issue and completion steps (R76, R77). -/

namespace Sys2Proof.Machine

/-- `pat(b, half)` of R73: the pattern of half `half` of the burst pair of bit `b`. -/
def pat (b half : Fin 2) : Word := if b = half then Config.patHigh else Config.patLow

/-- The transaction for half `half` of bit `pos` of `data` (R73, R76). -/
def burstEvent (data : Word) (pos : Nat) (half : Fin 2) : Event := .xfer Config.burstBits (pat (bitAt data pos) half)

/-- The burst pair of bit `pos` (R73). -/
def burstPair (data : Word) (pos : Nat) : List Event := [burstEvent data pos 0, burstEvent data pos 1]

/-- `burst_seq(data, len)` of R74: the burst pairs of bits `len - 1` down to 0. -/
def burstSeq (data : Word) (len : Nat) : List Event := (List.range len).reverse.flatMap (burstPair data)

/-- What ENC does in its accepting step (R75). A LEN above `LEN_MAX` stands in no ENC word (R50); such a term has the
effect of the word its fields spell, which is ILLEGAL (R54, R103; log 9). -/
def State.acceptEnc (freq duty : Byte) (len : Count) (data : Word) (s : State) : State :=
  if Config.lenMax < len.toNat then s.raiseFault .illegal
  else if len.toNat = 0 then (s.configure freq duty).raiseFault .undefLen
  else ((s.configure freq duty).latch data len.toNat).setSeq (.issue (len.toNat - 1) 0)

/-- ENC (R75, R79). -/
def execEnc (freq duty : Byte) (len : Count) (data : Word) (s : State) : Host.Outcome State Fault Refusal :=
  whenIdle (State.acceptEnc freq duty len data) s

/-- `step_issue` of R76: emits the transaction for `half` of bit `pos` and waits for it. -/
def State.stepIssue (pos : Nat) (half : Fin 2) (s : State) : State :=
  (s.xfer Config.burstBits (pat (bitAt s.dataL pos) half)).setSeq (.wait pos half)

/-- SEQ after the completion of the transaction for `half` of bit `pos` (R77). -/
def seqAfterAck (pos : Nat) (half : Fin 2) : Seq :=
  if half = 0 then .issue pos 1
  else if pos = 0 then .idle
  else .issue (pos - 1) 0

/-- `step_ack` of R77. -/
def State.stepAck (pos : Nat) (half : Fin 2) (s : State) : State := s.setSeq (seqAfterAck pos half)

end Sys2Proof.Machine
end

