-- ==== Sys2Proof/Machine/Dispatch.lean ====
section
/-! DEFINITION. The meaning of each instruction: one arm per row of spec/opcode_table.json. -/

namespace Sys2Proof.Machine

def exec (i : Instr) (s : State) : Host.Outcome State Fault Refusal :=
  match i with
  | .cfg freq duty => Sys2Proof.Machine.execCfg freq duty s
  | .enc freq duty len data => Sys2Proof.Machine.execEnc freq duty len data s

end Sys2Proof.Machine
end

