-- ==== Sys2Proof/Machine/Agents.lean ====
section
/-! DEFINITION. One move of each agent (00_scope.md R6): HOST on the CMD and STAT ports, BLOCK's issue step,
TRANSPORT's acknowledgement with BLOCK's completion step, and reset. An agent that may not move in the state has no
step (R12): its turn passes and nothing else changes (log 4). -/

namespace Sys2Proof.Machine

/-- An ILLEGAL word (60_exceptions.md R103): STATUS.ILLEGAL is set and nothing else happens. -/
def illegalWord (s : State) : Host.Outcome State Fault Refusal := whenIdle (State.raiseFault .illegal) s

/-- The block accepts a command word: it decodes it (R53) and runs what it decodes to (R44). -/
def acceptWord (w : CmdWord) (s : State) : Host.Outcome State Fault Refusal :=
  match decode w with
  | .legal i => exec i s
  | .illegal _ => illegalWord s

/-- HOST on the CMD port: only while SEQ is Idle does it present a word, which is then consumed (R43, R80, R115). -/
def hostTurn (s : State) : Host.Outcome State Fault Refusal :=
  match s.seq, s.presented with
  | .idle, some w => acceptWord w s.popCmd
  | .idle, none => .next s
  | .issue _ _, _ => .next s
  | .wait _ _, _ => .next s

/-- BLOCK: the issue step in `Issue` (R76). In `Idle` it has nothing to do, and in `Wait` it has no step without ACK
(R77, R88). -/
def blockTurn (s : State) : Host.Outcome State Fault Refusal :=
  match s.seq with
  | .issue pos half => .next (s.stepIssue pos half)
  | .wait _ _ => .next s
  | .idle => .next s

/-- TRANSPORT signals ACK: in `Wait` BLOCK takes its completion step (R77); elsewhere an ACK has no effect (R110; DEDUCED
for `Issue`, log 6). -/
def transportTurn (s : State) : Host.Outcome State Fault Refusal :=
  match s.seq with
  | .wait pos half => .next (s.stepAck pos half)
  | .issue _ _ => .next s
  | .idle => .next s

/-- The move of the agent whose turn it is. -/
def takeTurn (t : Turn) (s : State) : Host.Outcome State Fault Refusal :=
  match t with
  | .host => hostTurn s
  | .hostStat => .next s.readStat
  | .block => blockTurn s
  | .transport => transportTurn s
  | .reset => .next s.resetBlock

/-- One step of the system: the next turn is taken from the list, and its agent moves. -/
def stepTurn (s : State) : Host.Outcome State Fault Refusal := takeTurn s.nextTurn s.popTurn

/-- `s` with the word `w` next on the CMD port, the command port open and HOST's turn next (log 12). -/
def State.offer (w : CmdWord) (s : State) : State := ((s.setSeq .idle).pushCmd w).pushTurn .host

end Sys2Proof.Machine
end

