-- ==== Sys2Proof/Machine/Step.lean ====
section
/-! DEFINITION. The step function, and where it fetches its next instruction: the CMD port. -/

namespace Sys2Proof.Machine

/-- One step of the system. -/
def step (s : State) : Host.Outcome State Fault Refusal := stepTurn s

/-- `s` with the command word of `nbits` and `w` stored where `step` fetches its next instruction: first of the words
HOST presents, with SEQ Idle and HOST to move, so that the very next step runs it (log 12). -/
def State.withFetchWord (s : State) (nbits w : Nat) : State := s.offer (tableWord nbits w)

end Sys2Proof.Machine
end

