-- ==== Sys2Proof/Machine/Assembler.lean ====
section
/-! DEFINITION. The assembler's text (30_encoding.md R57, R58): one command per line, `;` starting a comment. What a
line's command assembles to is `assemble` (Decode.lean). Where R57 is silent on layout, see log 20. -/

namespace Sys2Proof.Machine

/-- A piece of a line: a comma, or a run of other characters between blanks and commas. -/
inductive Token where
  | comma
  | word (cs : List Char)
deriving DecidableEq, Repr

/-- What a line of text reads as. -/
inductive ParsedLine where
  /-- Blank, or a comment only. -/
  | empty
  | command (l : AsmLine)
  /-- No line of the assembler. -/
  | refused
deriving DecidableEq, Repr

/-- A token from the characters gathered for it, last first. -/
def closeToken (gathered : List Char) (rest : List Token) : List Token :=
  if gathered = [] then rest else .word gathered.reverse :: rest

/-- The tokens of a line; `gathered` holds the characters of the current one, last first. -/
def tokensFrom (gathered : List Char) : List Char → List Token
  | [] => closeToken gathered []
  | c :: cs =>
    if c = ',' then closeToken gathered (.comma :: tokensFrom [] cs)
    else if c = ' ' ∨ c = '\t' ∨ c = '\r' then closeToken gathered (tokensFrom [] cs)
    else tokensFrom (c :: gathered) cs

/-- The line up to its comment (R57). -/
def dropComment (cs : List Char) : List Char := cs.takeWhile (· ≠ ';')

/-- The value of a digit. -/
def digitValue (c : Char) : Option Nat :=
  if '0' ≤ c ∧ c ≤ '9' then some (c.toNat - '0'.toNat)
  else if 'a' ≤ c ∧ c ≤ 'f' then some (c.toNat - 'a'.toNat + 10)
  else if 'A' ≤ c ∧ c ≤ 'F' then some (c.toNat - 'A'.toNat + 10)
  else none

/-- Digits of a base, after the value read so far. -/
def readDigitsFrom (base acc : Nat) : List Char → Option Nat
  | [] => some acc
  | c :: cs =>
    match digitValue c with
    | some d => if d < base then readDigitsFrom base (base * acc + d) cs else none
    | none => none

/-- A non-empty run of digits of a base. -/
def readDigits (base : Nat) (cs : List Char) : Option Nat := if cs = [] then none else readDigitsFrom base 0 cs

/-- An integer in decimal, `0x` hexadecimal or `0b` binary (R57). In the latter two every `_` after the `0x` or `0b` is
dropped, wherever it stands: R8 allows `_` as a separator and does not say whether it may lead, trail or be doubled, so
that `0x_1`, `0x1_` and `0x1__2` are read is the model's choice (DESIGN CHOICE, log 20). -/
def readNumber : List Char → Option Nat
  | '0' :: 'x' :: cs => readDigits 16 (cs.filter (· ≠ '_'))
  | '0' :: 'b' :: cs => readDigits 2 (cs.filter (· ≠ '_'))
  | cs => readDigits 10 cs

/-- A selector operand: its letter, then a decimal number (R57). -/
def readSelector (letter : Char) : List Char → Option Nat
  | [] => none
  | c :: cs => if c = letter then readDigits 10 cs else none

/-- A `cfg` line from its operands' characters. -/
def readCfg (f d : List Char) : ParsedLine :=
  match readSelector 'f' f, readSelector 'd' d with
  | some freq, some duty => .command (.cfg freq duty)
  | _, _ => .refused

/-- An `enc` line from its operands' characters. -/
def readEnc (f d len data : List Char) : ParsedLine :=
  match readSelector 'f' f, readSelector 'd' d, readDigits 10 len, readNumber data with
  | some freq, some duty, some l, some x => .command (.enc freq duty l x)
  | _, _, _, _ => .refused

/-- A `send` line from its operands' characters (R58). -/
def readSend (data len : List Char) : ParsedLine :=
  match readNumber data, readDigits 10 len with
  | some x, some l => .command (.send x l)
  | _, _ => .refused

/-- A `.cmd` line from its operand's characters. -/
def readCmd (literal : List Char) : ParsedLine :=
  match readNumber literal with
  | some w => .command (.cmd w)
  | none => .refused

/-- The line with these tokens, by the forms of R57 and R58. -/
def parseTokens : List Token → ParsedLine
  | [] => .empty
  | [.word m, .word a] => if m = ['.', 'c', 'm', 'd'] then readCmd a else .refused
  | [.word m, .word a, .comma, .word b] =>
    if m = ['c', 'f', 'g'] then readCfg a b
    else if m = ['s', 'e', 'n', 'd'] then readSend a b
    else .refused
  | [.word m, .word a, .comma, .word b, .comma, .word c, .comma, .word d] =>
    if m = ['e', 'n', 'c'] then readEnc a b c d else .refused
  | _ => .refused

/-- A line of text (R57). -/
def parseLine (cs : List Char) : ParsedLine := parseTokens (tokensFrom [] (dropComment cs))

/-- The words of a text whose lines are these: none where the assembler refuses one of them. -/
def assembleLines : List (List Char) → Option (List CmdWord)
  | [] => some []
  | l :: ls =>
    match parseLine l, assembleLines ls with
    | .empty, some ws => some ws
    | .command c, some ws => (assemble c).map (· :: ws)
    | _, _ => none

end Sys2Proof.Machine
end

