-- ==== Sys2Proof/Machine/Transport.lean ====
section
/-! DEFINITION. What TRANSPORT does with the events it receives (45_transport_interface.md R85 to R89, 20_memory.md
R35, R42): its registers, its transactions and the bits it sends; and the inverse rule that reads a burst sequence
back (41_pulse_encoder.md R83). -/

namespace Sys2Proof.Machine

/-- The transport's two registers (60_exceptions.md R107). -/
structure TransportRegs where
  clkdiv : Word
  tmode : Byte
deriving DecidableEq, Repr

/-- The transport's registers after reset (R109). -/
def resetRegs : TransportRegs := { clkdiv := State.reset.clkdiv, tmode := State.reset.tmode }

/-- The transport's registers once it has received an event (R37, R85, R86): each write replaces one register whole. -/
def TransportRegs.receive (r : TransportRegs) (e : Event) : TransportRegs :=
  match e with
  | .wrmode m => { r with tmode := m }
  | .wrclk v => { r with clkdiv := v }
  | .xfer _ _ => r

/-- The transport's registers after a trace that began at reset. -/
def replayRegs (es : List Event) : TransportRegs := es.foldl TransportRegs.receive resetRegs

/-- A transaction as TRANSPORT performs it: the record of XFER, and the CLKDIV and TMODE it runs under (R42, R87). -/
structure Transaction where
  count : Count
  pattern : Word
  clkdiv : Word
  tmode : Byte
deriving DecidableEq, Repr

/-- The transactions TRANSPORT performs for a list of events, with the registers it holds before them: each XFER under
the values of the last WRCLK and WRMODE before it (R42). -/
def performedFrom (r : TransportRegs) : List Event → List Transaction
  | [] => []
  | .xfer n p :: es => { count := n, pattern := p, clkdiv := r.clkdiv, tmode := r.tmode } :: performedFrom r es
  | .wrmode m :: es => performedFrom (r.receive (.wrmode m)) es
  | .wrclk v :: es => performedFrom (r.receive (.wrclk v)) es

/-- The transactions of a trace that began at reset. -/
def performed (es : List Event) : List Transaction := performedFrom resetRegs es

/-- The transaction in flight: present exactly while SEQ is `Wait` (10_state.md R30). -/
def State.inFlight (s : State) : Option Transaction :=
  match s.seq with
  | .wait pos half =>
    some { count := Config.burstBits, pattern := pat (bitAt s.dataL pos) half, clkdiv := s.clkdiv, tmode := s.tmode }
  | .issue _ _ => none
  | .idle => none

/-- The bits a transaction of `n` bits with pattern `p` sends, in the order sent: bit `n - 1` first, bit 0 last
(R35, R87). -/
def sentBits (n : Count) (p : Word) : List Bool := (List.range n.toNat).reverse.map p.getLsbD

/-- Whether an event is a transaction. -/
def Event.isXfer : Event → Bool
  | .xfer _ _ => true
  | .wrmode _ => false
  | .wrclk _ => false

/-- The value an event writes to CLKDIV, if it is a WRCLK (R86). -/
def Event.clkdivWritten : Event → Option Word
  | .wrclk v => some v
  | .wrmode _ => none
  | .xfer _ _ => none

/-- The value an event writes to TMODE, if it is a WRMODE (R85). -/
def Event.tmodeWritten : Event → Option Byte
  | .wrmode m => some m
  | .wrclk _ => none
  | .xfer _ _ => none

/-- The inverse rule of R83 on one pair of transactions: low then high is 1, high then low is 0, anything else is no
burst pair. -/
def decodePair (a b : Event) : Option (Fin 2) :=
  if a = .xfer Config.burstBits Config.patLow ∧ b = .xfer Config.burstBits Config.patHigh then some 1
  else if a = .xfer Config.burstBits Config.patHigh ∧ b = .xfer Config.burstBits Config.patLow then some 0
  else none

/-- The bits of a burst sequence read as consecutive pairs, first sent first (R83); none where it is no sequence of
burst pairs. -/
def decodeBursts : List Event → Option (List (Fin 2))
  | [] => some []
  | [_] => none
  | a :: b :: es =>
    match decodePair a b, decodeBursts es with
    | some v, some vs => some (v :: vs)
    | _, _ => none

/-- The number whose bits these are, most significant first. -/
def bitsValue (bits : List (Fin 2)) : Nat := bits.foldl (fun acc b => 2 * acc + b.val) 0

end Sys2Proof.Machine
end

