-- ==== Sys2Proof/Machine/Waveform.lean ====
section
/-! DEFINITION. The derived waveform and timing (40_carrier_configurator.md R71, 45_transport_interface.md R90 to R95,
70_reset_and_hazards.md R120). No step depends on anything here. How clock and pattern make the output is the spec's own
reading (decision D14; log 15); what it leaves open is an opaque constant of Config. -/

namespace Sys2Proof.Machine

/-- The carrier period in reference clock ticks: `(PRE + 1) * (N + 1)` (R90). -/
def periodTicks (v : Word) : Nat := ((clkPre v).toNat + 1) * ((clkN v).toNat + 1)

/-- The carrier frequency in Hz: `REF_CLK_HZ / ((PRE + 1) * (N + 1))` (R71). -/
def carrierHz (v : Word) : ℚ := (Config.refClkHz : ℚ) / (periodTicks v : ℚ)

/-- The carrier period in seconds (R90). -/
def periodSeconds (v : Word) : ℚ := (periodTicks v : ℚ) / (Config.refClkHz : ℚ)

/-- The length of a transaction of `n` bits in ticks: one carrier period a bit (R90, R93). -/
def transactionTicks (n : Count) (v : Word) : Nat := n.toNat * periodTicks v

/-- The length of a transaction of `n` bits in seconds (R93). -/
def transactionSeconds (n : Count) (v : Word) : ℚ := (transactionTicks n v : ℚ) / (Config.refClkHz : ℚ)

/-- The length of a burst pair in seconds, without the gap inside it (R93). -/
def burstPairSeconds (v : Word) : ℚ := 2 * transactionSeconds Config.burstBits v

/-- The gaps before transactions `1 .. n` of a command, together, in seconds (R93), each a rational number (log 16). -/
def gapSeconds : Nat → ℚ
  | 0 => 0
  | n + 1 => gapSeconds n + ((Config.interTxGap (n + 1) : NNRat) : ℚ)

/-- How long an ENC of `len` bits occupies the output, in seconds: `2 * len` transactions and the `2 * len - 1` gaps
between them (R120). -/
def commandSeconds (v : Word) (len : Nat) : ℚ :=
  2 * (len : ℚ) * transactionSeconds Config.burstBits v + gapSeconds (2 * len - 1)

/-- The ticks of a carrier period in which SCLK is high, for `H <= N`: `(PRE + 1) * H` (R91). -/
def highTicks (v : Word) : Nat := ((clkPre v).toNat + 1) * (clkH v).toNat

/-- The ticks of a carrier period in which SCLK is low, for `H <= N`: `(PRE + 1) * (N + 1 - H)` (R91). -/
def lowTicks (v : Word) : Nat := ((clkPre v).toNat + 1) * ((clkN v).toNat + 1 - (clkH v).toNat)

/-- The carrier's duty, for `H <= N`: `H / (N + 1)` (R91). -/
def dutyFraction (v : Word) : ℚ := ((clkH v).toNat : ℚ) / (((clkN v).toNat : ℚ) + 1)

/-- SCLK at `tick` reference clock periods after the start of the `k`-th transaction since power-on: high in the first
`(PRE + 1) * H` ticks of each carrier period (R91). With H above N it is the open `FULL_DUTY_WAVEFORM` (R94). L has no
effect where R91 speaks (R95). -/
def sclk (v : Word) (k tick : Nat) : Bool :=
  if (clkH v).toNat ≤ (clkN v).toNat then decide (tick % periodTicks v < highTicks v)
  else Config.fullDutyWaveform v k tick

/-- The data bit being sent at `tick` of a transaction: one carrier period a bit, bit `n - 1` first (R35, R90). -/
def dataBitAt (x : Transaction) (tick : Nat) : Bool := x.pattern.getLsbD (x.count.toNat - 1 - tick / periodTicks x.clkdiv)

/-- The output between transactions: inactive (R92). -/
def idleOutput : Bool := false

/-- The IR output at `tick` reference clock periods after the start of `x`, the `k`-th transaction since power-on: SCLK
gated by the data bit, and inactive once it has ended (R92). Nothing is sent while the output phase is disabled
(R109); a mode the block never writes is open (log 17). -/
def irOutput (x : Transaction) (k tick : Nat) : Bool :=
  if tmodeDoutEn x.tmode = false then idleOutput
  else if x.tmode ≠ Config.tmodeValue then Config.otherModeOutput x.tmode k tick
  else if tick < transactionTicks x.count x.clkdiv then sclk x.clkdiv k tick && dataBitAt x tick
  else idleOutput

/-- The output at `tick` of a transaction during which, at tick `cut`, the block is reset: as `irOutput` has it before
the reset, and open afterwards (R110). What the open value may depend on (the transaction, its number `k` since power-on,
and `cut`) is the model's choice (DESIGN CHOICE, log 18). -/
def irOutputCut (x : Transaction) (k cut tick : Nat) : Bool :=
  if tick < cut then irOutput x k tick
  else Config.cutTransactionPin x.count x.pattern x.clkdiv x.tmode k cut tick

end Sys2Proof.Machine
end

