-- ==== Sys2Proof/Safety.lean ====
section
/-! DEFINITION. Runs, what counts as a safe run, and the invariant of the block, in the terms the statements use. -/

namespace Sys2Proof

open Sys2Proof.Machine

/-- `k` steps of the machine, as the host runs it (`run_eq_core` in Laws/Run.lean). -/
def run (k : Nat) (s : State) : Host.Outcome State Fault Refusal :=
  match k with
  | 0 => .next s
  | k + 1 =>
    match step s with
    | .next t => run k t
    | .fault r => .fault r
    | .refused r => .refused r

/-- No fault bit is set: the premise every claim about a run takes at its end (R104). -/
def Machine.State.noFault (s : State) : Prop := s.status.illegal = false ∧ s.status.undefLen = false

/-- A turn that neither acknowledges a transaction nor resets the block. -/
def Machine.Turn.quiet (t : Turn) : Prop := t ≠ .transport ∧ t ≠ .reset

/-- The turns of one command: HOST presents it, then for each transaction BLOCK issues it, some other turns pass, and
TRANSPORT acknowledges it. -/
def ackSchedule (waits : List (List Turn)) : List Turn :=
  .host :: waits.flatMap (fun ts => .block :: (ts ++ [.transport]))

/-- An event the block may emit (R24, R56, R73): the mode 0x41, the CLKDIV value of some selector pair, or a
transaction of 32 bits with a uniform pattern. -/
def Machine.Event.emittable (e : Event) : Prop :=
  match e with
  | .wrmode m => m = Config.tmodeValue
  | .wrclk v => ∃ f d, v = clkdivOf f d
  | .xfer n p => n = Config.burstBits ∧ (p = Config.patHigh ∨ p = Config.patLow)

/-- How many transactions of the running command have been issued (R27, R74). -/
def Machine.State.issued (s : State) : Nat :=
  match s.seq with
  | .idle => 0
  | .issue pos half => 2 * (s.lenL - 1 - pos) + half.val
  | .wait pos half => 2 * (s.lenL - 1 - pos) + half.val + 1

/-- SEQ's bit position stays below LEN_L (R27). -/
def Machine.State.posBelowLen (s : State) : Prop :=
  match s.seq with
  | .idle => True
  | .issue pos _ => pos < s.lenL
  | .wait pos _ => pos < s.lenL

/-- The block's invariant. -/
structure Machine.State.Inv (s : State) : Prop where
  /-- LEN_L is a legal bit length (R28). -/
  lenBound : s.lenL ≤ Config.lenMax
  /-- The bit position lies inside the command (R27). -/
  posBound : s.posBelowLen
  /-- The transport's registers are the ones its events left it (R14, R42, R85, R86). -/
  regsReplay : replayRegs s.trace = { clkdiv := s.clkdiv, tmode := s.tmode }
  /-- Only emittable events are in the trace (R24, R56). -/
  eventsEmittable : ∀ e ∈ s.trace, e.emittable
  /-- While a command runs, the trace ends with that command's configuration and the transactions issued so far, in the
  order of its burst sequence (R74 to R77). -/
  inProgress : s.seq ≠ .idle → ∃ before f d,
    s.trace = before ++ [.wrmode Config.tmodeValue, .wrclk (clkdivOf f d)] ++ (burstSeq s.dataL s.lenL).take s.issued

end Sys2Proof
end

