-- ==== Sys2Proof/Certificates/Slice0/Obligations.lean ====
section
/-! DEFINITION. The statements for the provers. Each docstring names the rule of spec/ it comes from; a statement that
rests on an inference the spec marks as its own says so. -/

open Sys2Proof Sys2Proof.Machine

/-! ### Encoding -/

/-- Decode and encode agree, for every well-formed command with every operand value its fields admit
(30_encoding.md sections 1 to 3). -/
def Obligations.DecodeOfEncode : Prop :=
  ∀ i : Instr, i.wellFormed = true → decode (encode i) = .legal i

/-- Each command has exactly one word: a word that decodes to a command is that command's encoding, and the command is
well formed (30_encoding.md sections 1 to 3). -/
def Obligations.EncodeOfDecode : Prop :=
  ∀ (w : CmdWord) (i : Instr), decode w = .legal i → i.wellFormed = true ∧ encode i = w

/-- The decode function as the match and mask table of R53 gives it, with each operand at its bits. -/
def Obligations.DecodeByMaskAndMatch : Prop :=
  ∀ w : CmdWord,
    (w &&& 0xFFFFFFFFFF0000FF#64 = 0x0000000000000001#64 →
      decode w = .legal (.cfg (w.extractLsb' 8 8) (w.extractLsb' 16 8))) ∧
    (w &&& 0x00000000C00000FF#64 = 0x0000000000000002#64 ∧ (w.extractLsb' 24 6).toNat ≤ 32 →
      decode w = .legal (.enc (w.extractLsb' 8 8) (w.extractLsb' 16 8) (w.extractLsb' 24 6) (w.extractLsb' 32 32))) ∧
    (¬ w &&& 0xFFFFFFFFFF0000FF#64 = 0x0000000000000001#64 →
      ¬ (w &&& 0x00000000C00000FF#64 = 0x0000000000000002#64 ∧ (w.extractLsb' 24 6).toNat ≤ 32) →
      ∃ why, decode w = .illegal why)

/-- The illegal encodings are exactly the four cases of R54, whatever FREQ and DUTY hold, and each of them, accepted,
sets STATUS.ILLEGAL and does nothing else. -/
def Obligations.IllegalEncodings : Prop :=
  ∀ w : CmdWord,
    ((∃ why, decode w = .illegal why) ↔
      ((w.extractLsb' 0 4).toNat = 0 ∨ 3 ≤ (w.extractLsb' 0 4).toNat) ∨
      ((w.extractLsb' 4 4).toNat ≠ 0 ∨ (w.extractLsb' 30 2).toNat ≠ 0) ∨
      ((w.extractLsb' 0 4).toNat = 1 ∧ ((w.extractLsb' 24 6).toNat ≠ 0 ∨ (w.extractLsb' 32 32).toNat ≠ 0)) ∨
      ((w.extractLsb' 0 4).toNat = 2 ∧ 33 ≤ (w.extractLsb' 24 6).toNat)) ∧
    ∀ s : State, (∃ why, decode w = .illegal why) → s.seq = .idle →
      acceptWord w s = .next { s with status := { s.status with illegal := true } }

/-- A few words written out from the spec's encoding decode to what they stand for (95_test_vectors.md V1). -/
def Obligations.SpelledWordsDecode : Prop :=
  decode 0x0000000000192401#64 = .legal (.cfg 36 25) ∧
  decode 0x0000000202192402#64 = .legal (.enc 36 25 2 2) ∧
  decode 0xFFFFFFFF20FFFF02#64 = .legal (.enc 255 255 32 0xFFFFFFFF) ∧
  decode 0x0000000080192402#64 = .illegal .reservedBits ∧
  decode 0x0000000000000003#64 = .illegal .reservedOp

/-- `send <DATA>, <LEN>` assembles to the word of `enc f36, d25, <LEN>, <DATA>` (R58): DATA, two zero bits, LEN, and the
bytes 0x19, 0x24, 0x02. -/
def Obligations.SendIsReferenceEnc : Prop :=
  ∀ data len : Nat,
    assemble (.send data len) = assemble (.enc 36 25 len data) ∧
    (len ≤ 32 → data < 2 ^ 32 →
      assemble (.send data len) =
        some (BitVec.ofNat 32 data ++ 0#2 ++ BitVec.ofNat 6 len ++ 0x19#8 ++ 0x24#8 ++ 0x02#8))

/-- The assembler refuses exactly the operands outside the ranges of R57, and the word of a `cfg` or `enc` line decodes
to that line's command with its operands (30_encoding.md section 5). -/
def Obligations.AssembledLinesDecode : Prop :=
  (∀ f d : Nat,
    (assemble (.cfg f d) = none ↔ ¬ (f ≤ 255 ∧ d ≤ 255)) ∧
    (f ≤ 255 → d ≤ 255 → ∃ w, assemble (.cfg f d) = some w ∧
      ∃ fr du : Byte, decode w = .legal (.cfg fr du) ∧ fr.toNat = f ∧ du.toNat = d)) ∧
  (∀ f d len data : Nat,
    (assemble (.enc f d len data) = none ↔ ¬ (f ≤ 255 ∧ d ≤ 255 ∧ len ≤ 32 ∧ data ≤ 2 ^ 32 - 1)) ∧
    (f ≤ 255 → d ≤ 255 → len ≤ 32 → data ≤ 2 ^ 32 - 1 → ∃ w, assemble (.enc f d len data) = some w ∧
      ∃ (fr du : Byte) (l : Count) (x : Word), decode w = .legal (.enc fr du l x) ∧
        fr.toNat = f ∧ du.toNat = d ∧ l.toNat = len ∧ x.toNat = data))

/-! ### Carrier Configurator -/

/-- The frequency table of R60, for every selector. -/
def Obligations.FrequencyTable : Prop :=
  ∀ f : Byte, freqRow f =
    (10, if f.toNat = 36 then 222 else if f.toNat = 38 then 210 else if f.toNat = 40 then 200
      else if f.toNat = 56 then 143 else 222)

/-- An unrecognized FREQ gives exactly the 36 kHz row, is not a fault and sets no status bit (R61). -/
def Obligations.UnrecognizedFrequencyFallsBack : Prop :=
  ∀ f : Byte, f.toNat ≠ 36 → f.toNat ≠ 38 → f.toNat ≠ 40 → f.toNat ≠ 56 →
    freqRow f = (10, 222) ∧ freqRow f = freqRow 36#8 ∧
    ∀ (d : Byte) (len : Count) (data : Word) (s : State), s.seq = .idle →
      exec (.cfg f d) s = exec (.cfg 36#8 d) s ∧
      exec (.enc f d len data) s = exec (.enc 36#8 d len data) s ∧
      (∃ t, exec (.cfg f d) s = .next t ∧ t.status = s.status) ∧
      (1 ≤ len.toNat → len.toNat ≤ 32 → ∃ t, exec (.enc f d len data) s = .next t ∧ t.status = s.status)

/-- The duty formulas of R62, for every cycle count and every selector. -/
def Obligations.DutyFormulas : Prop :=
  ∀ (c : Nat) (d : Byte), highOf c d =
    if d.toNat = 25 then c / 4 else if d.toNat = 33 then c / 3 else if d.toNat = 50 then c / 2
    else if d.toNat = 100 then c else c / 4

/-- An unrecognized DUTY gives the 25 % formula, is not a fault and sets no status bit (R64). -/
def Obligations.UnrecognizedDutyFallsBack : Prop :=
  ∀ d : Byte, d.toNat ≠ 25 → d.toNat ≠ 33 → d.toNat ≠ 50 → d.toNat ≠ 100 →
    (∀ c : Nat, highOf c d = c >>> 2) ∧
    ∀ (f : Byte) (len : Count) (data : Word) (s : State), s.seq = .idle →
      exec (.cfg f d) s = exec (.cfg f 25#8) s ∧
      exec (.enc f d len data) s = exec (.enc f 25#8 len data) s ∧
      (∃ t, exec (.cfg f d) s = .next t ∧ t.status = s.status) ∧
      (1 ≤ len.toNat → len.toNat ≤ 32 → ∃ t, exec (.enc f d len data) s = .next t ∧ t.status = s.status)

/-- `pack_clkdiv` puts the minus-one encoded pre-divider and cycle count, the high count and 0 in the four fields, each
masked to 8 bits, and for every triple `timing` gives the mask changes nothing and the subtractions do not wrap (R65). -/
def Obligations.ClkdivFieldsExact : Prop :=
  (∀ pre cyc high : Nat, 1 ≤ pre → 1 ≤ cyc →
    (clkPre (packClkdiv pre cyc high)).toNat = (pre - 1) % 256 ∧
    (clkN (packClkdiv pre cyc high)).toNat = (cyc - 1) % 256 ∧
    (clkH (packClkdiv pre cyc high)).toNat = high % 256 ∧
    (clkL (packClkdiv pre cyc high)).toNat = 0) ∧
  (∀ f d : Byte,
    10 ≤ (timing f d).1 ∧ 143 ≤ (timing f d).2.1 ∧
    (timing f d).1 - 1 < 256 ∧ (timing f d).2.1 - 1 < 256 ∧ (timing f d).2.2 < 256)

/-- The high count never exceeds the cycle count, and H is N + 1 exactly under the 100 % selector and below that
otherwise (40_carrier_configurator.md section 4: the spec's own inference, marked '[derived: from rule R62 and rule
R69]' there). -/
def Obligations.HighCountWithinPeriod : Prop :=
  ∀ f d : Byte,
    1 ≤ (timing f d).1 ∧ 1 ≤ (timing f d).2.1 ∧ (timing f d).2.2 ≤ (timing f d).2.1 ∧
    (clkH (clkdivOf f d)).toNat ≤ (clkN (clkdivOf f d)).toNat + 1 ∧
    ((clkH (clkdivOf f d)).toNat = (clkN (clkdivOf f d)).toNat + 1 ↔ d.toNat = 100)

/-- The configuration sequence writes the transport mode and then the clock divider and changes nothing else (R67). -/
def Obligations.ConfigureWritesModeThenDivider : Prop :=
  ∀ (f d : Byte) (s : State),
    s.configure f d =
      { s with
        tmode := 0x41#8
        clkdiv := packClkdiv (timing f d).1 (timing f d).2.1 (timing f d).2.2
        trace := s.trace ++ [.wrmode 0x41#8, .wrclk (packClkdiv (timing f d).1 (timing f d).2.1 (timing f d).2.2)] }

/-- CFG, accepted while SEQ is Idle, completes in that step: TMODE and CLKDIV are written, the two events are emitted in
this order, and every other field is unchanged (40_carrier_configurator.md section 3). -/
def Obligations.CfgCompletes : Prop :=
  ∀ (f d : Byte) (s : State), s.seq = .idle →
    exec (.cfg f d) s = .next
      { clkdiv := packClkdiv (timing f d).1 (timing f d).2.1 (timing f d).2.2
        tmode := 0x41#8
        status := s.status
        seq := .idle
        dataL := s.dataL
        lenL := s.lenL
        trace := s.trace ++ [.wrmode 0x41#8, .wrclk (packClkdiv (timing f d).1 (timing f d).2.1 (timing f d).2.2)]
        env := s.env }

/-- The mode a configuration leaves: output phase on, most significant bit first, every other phase and the reserved bit
off, whatever the selectors (R66), after CFG and after every legal ENC. -/
def Obligations.ConfiguredTransportMode : Prop :=
  ∀ (i : Instr) (s : State), i.wellFormed = true → s.seq = .idle → ∃ t, exec i s = .next t ∧
    t.tmode = 0x41#8 ∧
    tmodeDoutEn t.tmode = true ∧ tmodeMsbFirst t.tmode = true ∧ tmodeDinEn t.tmode = false ∧
    tmodeCmdEn t.tmode = false ∧ tmodeAddrEn t.tmode = false ∧ tmodeDummyEn t.tmode = false ∧
    tmodeCsTimEn t.tmode = false ∧ tmodeReserved t.tmode = false

/-- Issuing CFG twice completes; and if no fault bit is set at the end, it emits two identical pairs and otherwise leaves
what issuing it once leaves (20_memory.md section 3: the spec's own inference, marked '[derived: from rule R37 and rule
R67]'). -/
def Obligations.CfgTwiceLeavesSameRegisters : Prop :=
  ∀ (f d : Byte) (s : State), s.seq = .idle →
    ∃ t u : State, exec (.cfg f d) s = .next t ∧ exec (.cfg f d) t = .next u ∧
      (u.noFault → ∃ pair : List Event,
        t.trace = s.trace ++ pair ∧ u = { t with trace := s.trace ++ pair ++ pair })

/-- A CFG and then an ENC complete, as the ENC alone does; and if no fault bit is set at the end, the CFG has no effect on
what the ENC leaves but for the events in the trace: the ENC configures the carrier itself (70_reset_and_hazards.md
section 3: the spec's own inference). With LEN = 0 the end has a fault bit set, so only the completion is claimed. -/
def Obligations.EncOverwritesEarlierCfg : Prop :=
  ∀ (f d f' d' : Byte) (len : Count) (data : Word) (s : State), s.seq = .idle → len.toNat ≤ 32 →
    ∃ t u v : State,
      exec (.cfg f d) s = .next t ∧ exec (.enc f' d' len data) t = .next u ∧ exec (.enc f' d' len data) s = .next v ∧
      (u.noFault → v.noFault ∧ u.clkdiv = clkdivOf f' d' ∧
        ∃ added : List Event, v.trace = s.trace ++ added ∧ u = { v with trace := t.trace ++ added })

/-! ### Pulse Encoder -/

/-- ENC with LEN from 1 to 32, accepted while SEQ is Idle, completes its accepting step: the configuration, the latches
and SEQ = Issue(LEN - 1, 0); every other field is unchanged (41_pulse_encoder.md section 2). -/
def Obligations.EncCompletes : Prop :=
  ∀ (f d : Byte) (len : Count) (data : Word) (s : State), s.seq = .idle → 1 ≤ len.toNat → len.toNat ≤ 32 →
    exec (.enc f d len data) s = .next
      { clkdiv := packClkdiv (timing f d).1 (timing f d).2.1 (timing f d).2.2
        tmode := 0x41#8
        status := s.status
        seq := .issue (len.toNat - 1) 0
        dataL := data
        lenL := len.toNat
        trace := s.trace ++ [.wrmode 0x41#8, .wrclk (packClkdiv (timing f d).1 (timing f d).2.1 (timing f d).2.2)]
        env := s.env }

/-- The effects of a faulting word are exactly those of R103: an ILLEGAL word sets STATUS.ILLEGAL and has no other effect;
ENC with LEN = 0 configures the carrier, emits no transaction, sets STATUS.UNDEF_LEN and stays Idle. -/
def Obligations.FaultingWordEffects : Prop :=
  (∀ (w : CmdWord) (why : Illegal) (s : State), decode w = .illegal why → s.seq = .idle →
    acceptWord w s = .next { s with status := { s.status with illegal := true } }) ∧
  (∀ (f d : Byte) (data : Word) (s : State), s.seq = .idle →
    exec (.enc f d 0#6 data) s = .next
      { s with
        status := { s.status with undefLen := true }
        tmode := 0x41#8
        clkdiv := packClkdiv (timing f d).1 (timing f d).2.1 (timing f d).2.2
        trace := s.trace ++ [.wrmode 0x41#8, .wrclk (packClkdiv (timing f d).1 (timing f d).2.1 (timing f d).2.2)] })

/-- Legal commands never fault, for every FREQ and DUTY value: CFG, and ENC with LEN from 1 to 32, complete with STATUS
unchanged (R97). -/
def Obligations.LegalCommandsNeverFault : Prop :=
  ∀ (f d : Byte) (len : Count) (data : Word) (s : State), s.seq = .idle →
    (∃ t, exec (.cfg f d) s = .next t ∧ t.status = s.status) ∧
    (1 ≤ len.toNat → len.toNat ≤ 32 → ∃ t, exec (.enc f d len data) s = .next t ∧ t.status = s.status)

/-- A busy block accepts no command: both commands are held off with none of their effects (70_reset_and_hazards.md
section 3; that `exec` renders it as a state unchanged is the model's choice, log 8). -/
def Obligations.BusyBlockHoldsCommandsOff : Prop :=
  ∀ (i : Instr) (s : State), s.seq ≠ .idle → exec i s = .next s

/-- The issue step (R76): when SEQ = Issue(pos, half), BLOCK's move emits the transaction for that half of that bit, SEQ
becomes Wait(pos, half), and no other field changes. -/
def Obligations.IssueStepEmitsTransaction : Prop :=
  ∀ (s : State) (pos : Nat) (half : Fin 2), s.seq = .issue pos half →
    blockTurn s = .next
      { s with
        trace := s.trace ++ [.xfer 32#6
          (if (if s.dataL.getLsbD pos then 1 else 0) = half.val then 0xFFFFFFFF#32 else 0x00000000#32)]
        seq := .wait pos half }

/-- The completion step: on ACK in Wait(pos, half) SEQ goes to the second half, to the next bit, or to Idle after the last,
and no other field changes (41_pulse_encoder.md section 2). That the acknowledgement and the completion are one step,
TRANSPORT's, is the model's choice, log 5. Without ACK the block has no step there: that its move then leaves the state as
it is, is the model's choice, log 4. -/
def Obligations.AckStepAdvancesSequencer : Prop :=
  ∀ (s : State) (pos : Nat) (half : Fin 2), s.seq = .wait pos half →
    transportTurn s = .next
      { s with seq := if half = 0 then .issue pos 1 else if pos = 0 then .idle else .issue (pos - 1) 0 } ∧
    blockTurn s = .next s

/-- The burst sequence of R73 and R74 has `2 * len` events, all of them transactions of 32 bits with a uniform pattern,
and no pair of a bit is high-high or low-low (41_pulse_encoder.md section 1). -/
def Obligations.BurstSequenceShape : Prop :=
  ∀ (data : Word) (len : Nat),
    (burstSeq data len).length = 2 * len ∧
    (∀ e ∈ burstSeq data len, e = .xfer 32#6 0xFFFFFFFF#32 ∨ e = .xfer 32#6 0x00000000#32) ∧
    ∀ i < len, ∃ a b : Event, a ≠ b ∧
      (burstSeq data len)[2 * i]? = some a ∧ (burstSeq data len)[2 * i + 1]? = some b

/-- The burst sequence is decodable: reading it back by the inverse rule gives the low `len` bits of DATA
(41_pulse_encoder.md section 3: the spec's own inference, marked '[derived: from rule R73 and rule R74]'). -/
def Obligations.BurstSequenceDecodes : Prop :=
  ∀ (data : Word) (len : Nat),
    ∃ bits : List (Fin 2), decodeBursts (burstSeq data len) = some bits ∧ bits.length = len ∧
      bitsValue bits = data.toNat % 2 ^ len

/-- A whole ENC command with LEN from 1 to 32, whatever quiet turns pass before each acknowledgement: it completes; and if
no fault bit is set at the end, it has left STATUS unchanged, appended exactly its configuration and its burst sequence to
the trace, in that order, and left the registers, the latches and Idle. With no turns passing it takes `1 + 4 * len` steps
(41_pulse_encoder.md section 3: the spec's own inference, marked '[derived: from rule R75, rule R76 and rule R77]'). The
list of turns is the model's choice, log 3, and so is that a passing turn of a blocked agent changes nothing, log 4, and
that an acknowledgement and the completion are one step of the count, log 5. -/
def Obligations.EncRunEmitsBurstSequence : Prop :=
  (∀ (s : State) (f d : Byte) (len : Count) (data : Word) (words : List CmdWord) (waits : List (List Turn))
      (rest : List Turn),
    s.seq = .idle → 1 ≤ len.toNat → len.toNat ≤ 32 →
    s.env.cmd = encode (.enc f d len data) :: words →
    waits.length = 2 * len.toNat → (∀ ts ∈ waits, ∀ t ∈ ts, t.quiet) →
    s.env.turns = ackSchedule waits ++ rest →
    ∃ t, run (ackSchedule waits).length s = .next t ∧
      (t.noFault → t.status = s.status ∧
        t.trace = s.trace ++ [.wrmode 0x41#8, .wrclk (clkdivOf f d)] ++ burstSeq data len.toNat ∧
        t.seq = .idle ∧ t.clkdiv = clkdivOf f d ∧ t.tmode = 0x41#8 ∧ t.dataL = data ∧ t.lenL = len.toNat ∧
        t.env.cmd = words ∧ t.env.turns = rest)) ∧
  (∀ len : Nat, (ackSchedule (List.replicate (2 * len) [])).length = 1 + 4 * len)

/-- Bits of DATA at LEN and above do not affect any event: two systems alike but for those bits of the ENC that HOST
presents next have the same trace after every number of steps, under every sequence of turns, if no fault bit is set at
the end (41_pulse_encoder.md section 3: the spec's own inference, marked '[derived: from rule R72 and rule R74]'). -/
def Obligations.HighDataBitsIgnored : Prop :=
  ∀ (s : State) (f d : Byte) (len : Count) (x y : Word) (words : List CmdWord) (k : Nat) (t u : State),
    s.seq = .idle → (∀ i < len.toNat, x.getLsbD i = y.getLsbD i) →
    run k { s with env := { s.env with cmd := encode (.enc f d len x) :: words } } = .next t →
    run k { s with env := { s.env with cmd := encode (.enc f d len y) :: words } } = .next u →
    t.noFault → t.trace = u.trace ∧ t.seq = u.seq ∧ u.noFault

/-- While a command runs no register is written and only transactions are emitted: a step other than reset leaves CLKDIV,
TMODE and the latches as they are and adds to the trace nothing, or one transaction of 32 bits with a uniform pattern
(41_pulse_encoder.md section 3: the spec's own inference). -/
def Obligations.RunningCommandOnlyTransmits : Prop :=
  ∀ s t : State, s.seq ≠ .idle → s.nextTurn ≠ .reset → step s = .next t →
    t.clkdiv = s.clkdiv ∧ t.tmode = s.tmode ∧ t.status = s.status ∧ t.dataL = s.dataL ∧ t.lenL = s.lenL ∧
    (t.trace = s.trace ∨ ∃ p, (p = 0xFFFFFFFF#32 ∨ p = 0x00000000#32) ∧ t.trace = s.trace ++ [.xfer 32#6 p])

/-- At most one transaction is outstanding: a step that emits a transaction starts in Issue and ends in Wait with that
transaction in flight; and Wait is left only by an acknowledgement or a reset, an acknowledgement leaving no transaction in
flight and emitting none (45_transport_interface.md section 1: the spec's own inference). That the acknowledgement and the
completion are one step is the model's choice, log 5. -/
def Obligations.OneTransactionOutstanding : Prop :=
  ∀ s t : State, step s = .next t →
    (∀ n p, t.trace = s.trace ++ [.xfer n p] →
      s.inFlight = none ∧ (∃ pos half, s.seq = .issue pos half ∧ t.seq = .wait pos half) ∧
      t.inFlight = some { count := n, pattern := p, clkdiv := s.clkdiv, tmode := s.tmode }) ∧
    (s.inFlight ≠ none → s.nextTurn ≠ .transport → s.nextTurn ≠ .reset → t.inFlight = s.inFlight) ∧
    (s.inFlight ≠ none → s.nextTurn = .transport → t.inFlight = none ∧ t.trace = s.trace)

/-! ### Transport -/

/-- Every transaction is performed under the values of the last WRCLK and WRMODE emitted before it, or the values held
before them all, and no later event changes that (R42). -/
def Obligations.PerformedUnderLastWrites : Prop :=
  ∀ (r : TransportRegs) (before after : List Event) (n : Count) (p : Word),
    ∃ later : List Transaction,
      performedFrom r (before ++ [.xfer n p] ++ after) =
        performedFrom r before ++
        [{ count := n
           pattern := p
           clkdiv := (before.filterMap Event.clkdivWritten).getLast?.getD r.clkdiv
           tmode := (before.filterMap Event.tmodeWritten).getLast?.getD r.tmode }]
        ++ later

/-- In a state that meets the invariant, the transaction in flight is the last one TRANSPORT performs for the trace: 32
bits, under mode 0x41 and the carrier its own command configured: the trace ends with that configuration and the
transactions of the command issued so far (20_memory.md section 5, 41_pulse_encoder.md section 3: the spec's own
inference). -/
def Obligations.TransactionUnderOwnCarrier : Prop :=
  ∀ (s : State) (x : Transaction), s.Inv → s.inFlight = some x →
    (performed s.trace).getLast? = some x ∧ x.count = 32#6 ∧ x.tmode = 0x41#8 ∧
    ∃ before f d,
      s.trace =
        before ++ [.wrmode 0x41#8, .wrclk (clkdivOf f d)] ++ (burstSeq s.dataL s.lenL).take s.issued ∧
      x.clkdiv = clkdivOf f d

/-- The transport sends bit `n - 1` first and bit 0 last, and every pattern the block emits reads the same in either order
(20_memory.md section 2: the uniformity is the spec's own inference). -/
def Obligations.SerialBitOrder : Prop :=
  (∀ (n : Count) (p : Word), (sentBits n p).length = n.toNat ∧
    ∀ i < n.toNat, (sentBits n p)[i]? = some (p.getLsbD (n.toNat - 1 - i))) ∧
  (∀ b half : Fin 2, (sentBits 32#6 (pat b half)).reverse = sentBits 32#6 (pat b half))

/-- Without an acknowledgement or a reset a block that waits stays as it is, for any number of steps: only the turns
left and what HOST has read on STAT change (45_transport_interface.md section 1, the hang that must be kept). That the
passing turns of blocked agents give a next state, with nothing but the turns changed, is the model's choice, logs 3
and 4. -/
def Obligations.WaitsForeverWithoutAck : Prop :=
  ∀ (k : Nat) (s : State) (pos : Nat) (half : Fin 2), s.seq = .wait pos half →
    (∀ t ∈ s.env.turns.take k, t.quiet) →
    ∃ t, run k s = .next t ∧
      (t.noFault → t.env.cmd = s.env.cmd ∧ t.env.turns = s.env.turns.drop k ∧ t = { s with env := t.env })

/-! ### STATUS, reset and the ports -/

/-- STATUS on the STAT port and how its bits change (10_state.md section 5): bit 0 is ILLEGAL, bit 1 UNDEF_LEN, bit 2 says
SEQ is not Idle, bits 7:3 read 0; a word that decodes as illegal, presented in Idle on HOST's turn, sets ILLEGAL, an ENC
with LEN = 0 sets UNDEF_LEN, and nothing else newly sets either; neither is cleared but by reset; and reading STATUS
changes nothing of the block. The turns are the model's choice, log 3, and so is the list of what HOST has read, log 7. -/
def Obligations.StatusBits : Prop :=
  (∀ s : State, s.stat.getLsbD 0 = s.status.illegal ∧ s.stat.getLsbD 1 = s.status.undefLen ∧
    (s.stat.getLsbD 2 = true ↔ s.seq ≠ .idle) ∧ ∀ i, 3 ≤ i → s.stat.getLsbD i = false) ∧
  (∀ (s : State) (w : CmdWord), s.seq = .idle → s.nextTurn = .host → s.presented = some w →
    (∀ why, decode w = .illegal why → ∃ t, step s = .next t ∧ t.status = { s.status with illegal := true }) ∧
    (∀ f d x, decode w = .legal (.enc f d 0#6 x) →
      ∃ t, step s = .next t ∧ t.status = { s.status with undefLen := true })) ∧
  (∀ s t : State, step s = .next t → s.nextTurn ≠ .reset →
    (s.status.illegal = true → t.status.illegal = true) ∧
    (s.status.undefLen = true → t.status.undefLen = true) ∧
    (s.status.illegal = false → t.status.illegal = true →
      s.seq = .idle ∧ s.nextTurn = .host ∧ ∃ w why, s.presented = some w ∧ decode w = .illegal why) ∧
    (s.status.undefLen = false → t.status.undefLen = true →
      s.seq = .idle ∧ s.nextTurn = .host ∧ ∃ w f d x, s.presented = some w ∧ decode w = .legal (.enc f d 0#6 x))) ∧
  (∀ s : State, s.nextTurn = .reset → ∃ t, step s = .next t ∧ t.noFault) ∧
  (∀ s : State, s.readStat = { s with env := s.readStat.env } ∧ s.readStat.stat = s.stat ∧
    s.readStat.env.statReads = s.env.statReads ++ [s.stat] ∧ s.readStat.env.cmd = s.env.cmd)

/-- A step raises at most one fault (60_exceptions.md section 1: the spec's own inference). -/
def Obligations.AtMostOneFaultPerStep : Prop :=
  ∀ s t : State, step s = .next t →
    ¬ ((s.status.illegal = false ∧ t.status.illegal = true) ∧ (s.status.undefLen = false ∧ t.status.undefLen = true))

/-- A fault bit stays 1 through any number of steps without a reset among them, so a run that ends with no fault bit set
has set none on the way (60_exceptions.md section 1). The first two clauses say of the bits themselves that no later step
clears them, which is why the premise at the end of a run suffices for every other statement about a run. -/
def Obligations.FaultBitsStayUntilReset : Prop :=
  ∀ (k : Nat) (s t : State), run k s = .next t → (∀ τ ∈ s.env.turns.take k, τ ≠ .reset) →
    (s.status.illegal = true → t.status.illegal = true) ∧
    (s.status.undefLen = true → t.status.undefLen = true) ∧
    (t.noFault → ∀ j ≤ k, ∃ u, run j s = .next u ∧ u.noFault)

/-- BUSY is the view SEQ != Idle, shown as STATUS bit 2; while it is 1 HOST presents no word on the command port; a CFG
command never makes it 1 (10_state.md section 6). That HOST's turn then leaves the state as it is, is the model's choice,
log 4. -/
def Obligations.BusyIsSeqNotIdle : Prop :=
  (∀ s : State, (s.busy = true ↔ s.seq ≠ .idle) ∧ s.stat.getLsbD 2 = s.busy) ∧
  (∀ s : State, s.busy = true → hostTurn s = .next s) ∧
  (∀ (f d : Byte) (s : State), s.busy = false → ∃ t, exec (.cfg f d) s = .next t ∧ t.busy = false)

/-- The command port loses and overwrites no word: a step leaves HOST's words as they are, or takes the first of them, and
that only while SEQ is Idle (70_reset_and_hazards.md section 3). That a reset leaves them too is the model's choice,
log 10. -/
def Obligations.CommandPortLosesNoWord : Prop :=
  ∀ s t : State, step s = .next t →
    (t.env.cmd = s.env.cmd ∨
      (s.seq = .idle ∧ s.nextTurn = .host ∧ ∃ w, s.env.cmd = w :: t.env.cmd)) ∧
    (s.stat.getLsbD 2 = true → t.env.cmd = s.env.cmd)

/-- What HOST holds on the command port does not affect a running command: with other words there, every step does the
same (20_memory.md section 5). That HOST's blocked turn leaves the state as it is, is the model's choice, log 4, and so is
that HOST's words outlast a step that is a reset, log 10. -/
def Obligations.RunningCommandIgnoresCmdPort : Prop :=
  ∀ (s t : State) (words : List CmdWord), s.seq ≠ .idle → step s = .next t →
    step { s with env := { s.env with cmd := words } } = .next { t with env := { t.env with cmd := words } }

/-- CLKDIV and TMODE change only by reset or by the block accepting a command word; no acknowledgement, no STAT read and
no word held off writes them (10_state.md section 1). -/
def Obligations.OnlyTheBlockWritesTransport : Prop :=
  ∀ s t : State, step s = .next t → (t.clkdiv ≠ s.clkdiv ∨ t.tmode ≠ s.tmode) →
    s.nextTurn = .reset ∨
    (s.seq = .idle ∧ s.nextTurn = .host ∧ ∃ w i, s.presented = some w ∧ decode w = .legal i)

/-- Reset (R110) ends a command: whatever SEQ is, every field of the block takes its reset value, so SEQ is Idle; no agent
but HOST can then emit an event, so none of that command follows; and an ACK that finds SEQ = Idle has no effect. -/
def Obligations.ResetEndsCommand : Prop :=
  (∀ s : State, s.nextTurn = .reset → ∃ t, step s = .next t ∧
    t.seq = .idle ∧ t.clkdiv = 0x00000000#32 ∧ t.tmode = 0x00#8 ∧ t.noFault ∧ t.busy = false ∧
    t.dataL = 0#32 ∧ t.lenL = 0 ∧ t.trace = []) ∧
  (∀ s : State, s.seq = .idle → transportTurn s = .next s) ∧
  (∀ s t : State, s.seq = .idle → s.nextTurn ≠ .host → s.nextTurn ≠ .reset → step s = .next t → t.trace = s.trace)

/-- The reset values, that the output they leave is inactive, and that no trace depends on those of CLKDIV and
TMODE: from any two states alike but for these registers, every run has the same trace, if no fault bit is set at the
end (70_reset_and_hazards.md section 1). The clauses about SCLK and the output rest on the waveform reading, log 15 (the
spec's decision D14). -/
def Obligations.ResetValuesUnobservable : Prop :=
  (State.reset.clkdiv = 0x00000000#32 ∧ State.reset.tmode = 0x00#8 ∧ State.reset.noFault ∧
    State.reset.busy = false ∧ State.reset.seq = .idle ∧ State.reset.dataL = 0#32 ∧ State.reset.lenL = 0 ∧
    State.reset.trace = [] ∧ tmodeDoutEn State.reset.tmode = false ∧
    (∀ k tick, sclk State.reset.clkdiv k tick = false) ∧
    ∀ (x : Transaction) (k tick : Nat), x.tmode = State.reset.tmode → irOutput x k tick = false) ∧
  (∀ (s : State) (v : Word) (m : Byte) (k : Nat) (t u : State),
    run k s = .next t → run k { s with clkdiv := v, tmode := m } = .next u →
    t.noFault → t.trace = u.trace ∧ t.seq = u.seq ∧ u.noFault)

/-- The latches (R28): they are written only when an ENC command is accepted (or by reset), with its DATA and LEN; and
while SEQ is Idle their values have no effect: two Idle states alike but for them have the same trace and SEQ after
every run, if no fault bit is set at the end. -/
def Obligations.LatchesWrittenByEncOnly : Prop :=
  (∀ s t : State, step s = .next t → s.nextTurn ≠ .reset →
    (t.dataL = s.dataL ∧ t.lenL = s.lenL) ∨
    (s.seq = .idle ∧ s.nextTurn = .host ∧
      ∃ w f d l, s.presented = some w ∧ decode w = .legal (.enc f d l t.dataL) ∧ t.lenL = l.toNat)) ∧
  (∀ (s : State) (x : Word) (n k : Nat) (t u : State), s.seq = .idle →
    run k s = .next t → run k { s with dataL := x, lenL := n } = .next u →
    t.noFault → t.trace = u.trace ∧ t.seq = u.seq ∧ t.clkdiv = u.clkdiv ∧ t.tmode = u.tmode ∧ u.noFault)

/-! ### The machine as a whole -/

/-- A step runs the decoded instruction: when SEQ is Idle, it is HOST's turn and the word on the command port decodes to
`i`, the step is `exec i` on the state with that word and that turn taken; where the word decodes as illegal, the step sets
STATUS.ILLEGAL and takes that word and that turn, and nothing else changes. The list of turns is the model's choice, log 3.
So is the last clause, log 12: `withFetchWord` sets SEQ to Idle and puts the word and HOST's turn first, and the next
step runs that word. -/
def Obligations.StepRunsDecodedCommand : Prop :=
  (∀ (s : State) (w : CmdWord) (words : List CmdWord) (i : Instr),
    s.seq = .idle → s.nextTurn = .host → s.env.cmd = w :: words → decode w = .legal i →
    step s = exec i { s with env := { s.env with cmd := words, turns := s.env.turns.tail } }) ∧
  (∀ (s : State) (w : CmdWord) (words : List CmdWord) (why : Illegal),
    s.seq = .idle → s.nextTurn = .host → s.env.cmd = w :: words → decode w = .illegal why →
    step s = .next
      { s with
        status := { s.status with illegal := true }
        env := { s.env with cmd := words, turns := s.env.turns.tail } }) ∧
  (∀ (s : State) (nbits w : Nat) (i : Instr), decodeTableWord nbits w = some i →
    step (s.withFetchWord nbits w) = exec i { s with seq := .idle })

/-- Which agent a step moves, on the state with its turn taken: the agent whose turn is listed first, and with none listed
HOST while SEQ is Idle and BLOCK otherwise. The turns are the model's choice, log 3, and so is that HOST's words, its
reads and the turns outlast a reset, log 10 (00_scope.md section 2). -/
def Obligations.StepMovesTheAgentWhoseTurnItIs : Prop :=
  ∀ s u : State, u = { s with env := { s.env with turns := s.env.turns.tail } } →
    (s.nextTurn = .host → step s = hostTurn u) ∧
    (s.nextTurn = .hostStat → step s = .next u.readStat) ∧
    (s.nextTurn = .block → step s = blockTurn u) ∧
    (s.nextTurn = .transport → step s = transportTurn u) ∧
    (s.nextTurn = .reset → step s = .next u.resetBlock ∧ u.resetBlock.env = u.env) ∧
    (s.env.turns = [] → s.seq = .idle → s.nextTurn = .host) ∧
    (s.env.turns = [] → s.seq ≠ .idle → s.nextTurn = .block) ∧
    (∀ τ rest, s.env.turns = τ :: rest → s.nextTurn = τ)

/-- Every step has a next state: no word, no turn and no state makes the machine stop (00_scope.md section 4,
60_exceptions.md section 1). The spec lets an agent have no step; that its turn then gives a next state is the model's
choice, log 4, and so is that the type of faults is empty, log 14. -/
def Obligations.EveryStepContinues : Prop :=
  ∀ s : State, ∃ t, step s = .next t

/-- The trace only grows: from every state, a step other than reset adds at most two events at its end, each of a kind the
block may emit: the mode 0x41, the CLKDIV value of a selector pair, or a transaction of 32 bits with a uniform pattern
(40_carrier_configurator.md section 2, 41_pulse_encoder.md section 2, 10_state.md section 4). -/
def Obligations.TraceGrowsByEmittableEvents : Prop :=
  ∀ s t : State, step s = .next t → s.nextTurn ≠ .reset →
    ∃ added : List Event, t.trace = s.trace ++ added ∧ added.length ≤ 2 ∧ ∀ e ∈ added, e.emittable

/-- The invariant holds at reset. -/
def Obligations.ResetMeetsInvariant : Prop := State.reset.Inv

/-- Every step keeps the invariant: LEN_L a legal length, SEQ's position inside the command, the transport's registers
those its events left, only emittable events, and, while a command runs, the trace ending with its configuration and the
transactions issued so far, in the order of its burst sequence (10_state.md sections 1 and 6, 41_pulse_encoder.md
sections 2 and 3). -/
def Obligations.StepKeepsInvariant : Prop :=
  ∀ s t : State, s.Inv → step s = .next t → t.Inv

/-! ### Derived waveform and timing -/

/-- The carrier frequency of every selector pair is 8 000 000 Hz over its cycle count, and its period ten times the cycle
count in reference ticks (40_carrier_configurator.md section 4, 45_transport_interface.md section 2: the spec's own
inferences). -/
def Obligations.CarrierRates : Prop :=
  ∀ f d : Byte,
    carrierHz (clkdivOf f d) = 8000000 / ((freqRow f).2 : ℚ) ∧
    periodTicks (clkdivOf f d) = 10 * (freqRow f).2 ∧
    periodSeconds (clkdivOf f d) * carrierHz (clkdivOf f d) = 1

/-- How long a transaction, a burst pair and a command last: 32 carrier periods, twice that, and `2 * len` transactions
with `2 * len - 1` gaps, each of open length and so at least the transactions alone (45_transport_interface.md section
2, 70_reset_and_hazards.md section 4: the spec's own inferences). That each gap of a command has an open length of its
own, where the spec has the one parameter INTER_TX_GAP, and that it is a rational number of seconds, where the spec has any
non-negative time, is the model's choice, log 16. -/
def Obligations.DerivedDurations : Prop :=
  ∀ (f d : Byte) (len : Nat),
    transactionSeconds 32#6 (clkdivOf f d) = 32 * (freqRow f).2 / 8000000 ∧
    burstPairSeconds (clkdivOf f d) = 64 * (freqRow f).2 / 8000000 ∧
    len * burstPairSeconds (clkdivOf f d) ≤ commandSeconds (clkdivOf f d) len ∧
    commandSeconds (clkdivOf f d) len =
      len * burstPairSeconds (clkdivOf f d) + ∑ i ∈ Finset.range (2 * len - 1), (Config.interTxGap (i + 1) : ℚ)

/-- SCLK within a carrier period, for H <= N (45_transport_interface.md section 2): high for the first `(PRE + 1) * H` ticks, low for the remaining
`(PRE + 1) * (N + 1 - H)`, so the carrier's duty is `H / (N + 1)`, which is the high count over the cycle count. This rests on the waveform reading,
log 15 (the spec's decision D14). -/
def Obligations.SclkHighFirst : Prop :=
  (∀ (v : Word) (k tick : Nat), (clkH v).toNat ≤ (clkN v).toNat →
    (sclk v k tick = true ↔ tick % periodTicks v < ((clkPre v).toNat + 1) * (clkH v).toNat) ∧
    highTicks v + lowTicks v = periodTicks v ∧
    ((List.range (periodTicks v)).filter (sclk v k)).length = highTicks v ∧
    (highTicks v : ℚ) / (periodTicks v : ℚ) = dutyFraction v) ∧
  (∀ f d : Byte, d.toNat ≠ 100 →
    dutyFraction (clkdivOf f d) = ((timing f d).2.2 : ℚ) / ((timing f d).2.1 : ℚ))

/-- The IR output is SCLK gated by the data bit: a transaction of all-one bits shows SCLK for its 32 carrier periods, one
of all-zero bits stays inactive, and after its end the output is inactive (45_transport_interface.md section 2). This
rests on the waveform reading, log 15 (the spec's decision D14). -/
def Obligations.OutputIsGatedCarrier : Prop :=
  ∀ (x : Transaction) (k tick : Nat), x.tmode = 0x41#8 →
    (irOutput x k tick = true →
      sclk x.clkdiv k tick = true ∧ tick < x.count.toNat * periodTicks x.clkdiv ∧
      x.pattern.getLsbD (x.count.toNat - 1 - tick / periodTicks x.clkdiv) = true) ∧
    (x.pattern = 0x00000000#32 → irOutput x k tick = false) ∧
    (x.pattern = 0xFFFFFFFF#32 → x.count = 32#6 → tick < 32 * periodTicks x.clkdiv →
      irOutput x k tick = sclk x.clkdiv k tick)

/-- The low-duration field is always written 0 and has no effect on the period or, for H <= N, on SCLK
(45_transport_interface.md section 2). That it has none on SCLK rests on the waveform reading, log 15 (the spec's decision
D14). -/
def Obligations.LowFieldHasNoEffect : Prop :=
  (∀ f d : Byte, clkL (clkdivOf f d) = 0#8) ∧
  (∀ (v w : Word) (k tick : Nat), clkPre v = clkPre w → clkN v = clkN w → clkH v = clkH w →
    periodTicks v = periodTicks w ∧ ((clkH v).toNat ≤ (clkN v).toNat → sclk v k tick = sclk w k tick))
end

