-- ==== Sys2Proof/Laws/Carrier.lean ====
section
/-! SUPPORT. What a selector can select (40_carrier_configurator.md R60 to R64). -/

namespace Sys2Proof.Machine

/-- Every frequency selector resolves to one of the four rows. -/
theorem freqRow_cases (f : Byte) :
    freqRow f = (10, 222) ∨ freqRow f = (10, 210) ∨ freqRow f = (10, 200) ∨ freqRow f = (10, 143) := by
  unfold freqRow
  repeat' split
  all_goals simp [Config.preDivider]

/-- Every duty selector is one of the four formulas, and only the 100 % selector is the full period. -/
theorem highOf_cases (c : Nat) (d : Byte) :
    (d ≠ 100#8 ∧ (highOf c d = c / 4 ∨ highOf c d = c / 3 ∨ highOf c d = c / 2)) ∨ (d = 100#8 ∧ highOf c d = c) := by
  unfold highOf
  repeat' split
  all_goals simp_all [Nat.shiftRight_eq_div_pow]

end Sys2Proof.Machine
end

