-- ==== Sys2Proof/Laws/State.lean ====
section
/-! SUPPORT. For each update of the state, what each field holds after it. -/

namespace Sys2Proof.Machine

/-! ### emit -/

@[simp] theorem State.emit_clkdiv (s : State) (e : Event) : (s.emit e).clkdiv = s.clkdiv := rfl
@[simp] theorem State.emit_tmode (s : State) (e : Event) : (s.emit e).tmode = s.tmode := rfl
@[simp] theorem State.emit_status (s : State) (e : Event) : (s.emit e).status = s.status := rfl
@[simp] theorem State.emit_seq (s : State) (e : Event) : (s.emit e).seq = s.seq := rfl
@[simp] theorem State.emit_dataL (s : State) (e : Event) : (s.emit e).dataL = s.dataL := rfl
@[simp] theorem State.emit_lenL (s : State) (e : Event) : (s.emit e).lenL = s.lenL := rfl
@[simp] theorem State.emit_trace (s : State) (e : Event) : (s.emit e).trace = s.trace ++ [e] := rfl
@[simp] theorem State.emit_env (s : State) (e : Event) : (s.emit e).env = s.env := rfl

/-! ### wrmode -/

@[simp] theorem State.wrmode_clkdiv (s : State) (m : Byte) : (s.wrmode m).clkdiv = s.clkdiv := rfl
@[simp] theorem State.wrmode_tmode (s : State) (m : Byte) : (s.wrmode m).tmode = m := rfl
@[simp] theorem State.wrmode_status (s : State) (m : Byte) : (s.wrmode m).status = s.status := rfl
@[simp] theorem State.wrmode_seq (s : State) (m : Byte) : (s.wrmode m).seq = s.seq := rfl
@[simp] theorem State.wrmode_dataL (s : State) (m : Byte) : (s.wrmode m).dataL = s.dataL := rfl
@[simp] theorem State.wrmode_lenL (s : State) (m : Byte) : (s.wrmode m).lenL = s.lenL := rfl
@[simp] theorem State.wrmode_trace (s : State) (m : Byte) : (s.wrmode m).trace = s.trace ++ [.wrmode m] := rfl
@[simp] theorem State.wrmode_env (s : State) (m : Byte) : (s.wrmode m).env = s.env := rfl

/-! ### wrclk -/

@[simp] theorem State.wrclk_clkdiv (s : State) (v : Word) : (s.wrclk v).clkdiv = v := rfl
@[simp] theorem State.wrclk_tmode (s : State) (v : Word) : (s.wrclk v).tmode = s.tmode := rfl
@[simp] theorem State.wrclk_status (s : State) (v : Word) : (s.wrclk v).status = s.status := rfl
@[simp] theorem State.wrclk_seq (s : State) (v : Word) : (s.wrclk v).seq = s.seq := rfl
@[simp] theorem State.wrclk_dataL (s : State) (v : Word) : (s.wrclk v).dataL = s.dataL := rfl
@[simp] theorem State.wrclk_lenL (s : State) (v : Word) : (s.wrclk v).lenL = s.lenL := rfl
@[simp] theorem State.wrclk_trace (s : State) (v : Word) : (s.wrclk v).trace = s.trace ++ [.wrclk v] := rfl
@[simp] theorem State.wrclk_env (s : State) (v : Word) : (s.wrclk v).env = s.env := rfl

/-! ### xfer -/

@[simp] theorem State.xfer_clkdiv (s : State) (n : Count) (p : Word) : (s.xfer n p).clkdiv = s.clkdiv := rfl
@[simp] theorem State.xfer_tmode (s : State) (n : Count) (p : Word) : (s.xfer n p).tmode = s.tmode := rfl
@[simp] theorem State.xfer_status (s : State) (n : Count) (p : Word) : (s.xfer n p).status = s.status := rfl
@[simp] theorem State.xfer_seq (s : State) (n : Count) (p : Word) : (s.xfer n p).seq = s.seq := rfl
@[simp] theorem State.xfer_dataL (s : State) (n : Count) (p : Word) : (s.xfer n p).dataL = s.dataL := rfl
@[simp] theorem State.xfer_lenL (s : State) (n : Count) (p : Word) : (s.xfer n p).lenL = s.lenL := rfl
@[simp] theorem State.xfer_trace (s : State) (n : Count) (p : Word) : (s.xfer n p).trace = s.trace ++ [.xfer n p] := rfl
@[simp] theorem State.xfer_env (s : State) (n : Count) (p : Word) : (s.xfer n p).env = s.env := rfl

/-! ### setSeq -/

@[simp] theorem State.setSeq_clkdiv (s : State) (q : Seq) : (s.setSeq q).clkdiv = s.clkdiv := rfl
@[simp] theorem State.setSeq_tmode (s : State) (q : Seq) : (s.setSeq q).tmode = s.tmode := rfl
@[simp] theorem State.setSeq_status (s : State) (q : Seq) : (s.setSeq q).status = s.status := rfl
@[simp] theorem State.setSeq_seq (s : State) (q : Seq) : (s.setSeq q).seq = q := rfl
@[simp] theorem State.setSeq_dataL (s : State) (q : Seq) : (s.setSeq q).dataL = s.dataL := rfl
@[simp] theorem State.setSeq_lenL (s : State) (q : Seq) : (s.setSeq q).lenL = s.lenL := rfl
@[simp] theorem State.setSeq_trace (s : State) (q : Seq) : (s.setSeq q).trace = s.trace := rfl
@[simp] theorem State.setSeq_env (s : State) (q : Seq) : (s.setSeq q).env = s.env := rfl

/-! ### latch -/

@[simp] theorem State.latch_clkdiv (s : State) (data : Word) (len : Nat) : (s.latch data len).clkdiv = s.clkdiv := rfl
@[simp] theorem State.latch_tmode (s : State) (data : Word) (len : Nat) : (s.latch data len).tmode = s.tmode := rfl
@[simp] theorem State.latch_status (s : State) (data : Word) (len : Nat) : (s.latch data len).status = s.status := rfl
@[simp] theorem State.latch_seq (s : State) (data : Word) (len : Nat) : (s.latch data len).seq = s.seq := rfl
@[simp] theorem State.latch_dataL (s : State) (data : Word) (len : Nat) : (s.latch data len).dataL = data := rfl
@[simp] theorem State.latch_lenL (s : State) (data : Word) (len : Nat) : (s.latch data len).lenL = len := rfl
@[simp] theorem State.latch_trace (s : State) (data : Word) (len : Nat) : (s.latch data len).trace = s.trace := rfl
@[simp] theorem State.latch_env (s : State) (data : Word) (len : Nat) : (s.latch data len).env = s.env := rfl

/-! ### resetBlock -/

@[simp] theorem State.resetBlock_clkdiv (s : State) : (s.resetBlock).clkdiv = 0#32 := rfl
@[simp] theorem State.resetBlock_tmode (s : State) : (s.resetBlock).tmode = 0#8 := rfl
@[simp] theorem State.resetBlock_status (s : State) : (s.resetBlock).status = { illegal := false, undefLen := false } := rfl
@[simp] theorem State.resetBlock_seq (s : State) : (s.resetBlock).seq = .idle := rfl
@[simp] theorem State.resetBlock_dataL (s : State) : (s.resetBlock).dataL = 0#32 := rfl
@[simp] theorem State.resetBlock_lenL (s : State) : (s.resetBlock).lenL = 0 := rfl
@[simp] theorem State.resetBlock_trace (s : State) : (s.resetBlock).trace = [] := rfl
@[simp] theorem State.resetBlock_env (s : State) : (s.resetBlock).env = s.env := rfl

/-! ### popCmd -/

@[simp] theorem State.popCmd_clkdiv (s : State) : (s.popCmd).clkdiv = s.clkdiv := rfl
@[simp] theorem State.popCmd_tmode (s : State) : (s.popCmd).tmode = s.tmode := rfl
@[simp] theorem State.popCmd_status (s : State) : (s.popCmd).status = s.status := rfl
@[simp] theorem State.popCmd_seq (s : State) : (s.popCmd).seq = s.seq := rfl
@[simp] theorem State.popCmd_dataL (s : State) : (s.popCmd).dataL = s.dataL := rfl
@[simp] theorem State.popCmd_lenL (s : State) : (s.popCmd).lenL = s.lenL := rfl
@[simp] theorem State.popCmd_trace (s : State) : (s.popCmd).trace = s.trace := rfl
@[simp] theorem State.popCmd_env (s : State) : (s.popCmd).env = { s.env with cmd := s.env.cmd.tail } := rfl

/-! ### pushCmd -/

@[simp] theorem State.pushCmd_clkdiv (s : State) (w : CmdWord) : (s.pushCmd w).clkdiv = s.clkdiv := rfl
@[simp] theorem State.pushCmd_tmode (s : State) (w : CmdWord) : (s.pushCmd w).tmode = s.tmode := rfl
@[simp] theorem State.pushCmd_status (s : State) (w : CmdWord) : (s.pushCmd w).status = s.status := rfl
@[simp] theorem State.pushCmd_seq (s : State) (w : CmdWord) : (s.pushCmd w).seq = s.seq := rfl
@[simp] theorem State.pushCmd_dataL (s : State) (w : CmdWord) : (s.pushCmd w).dataL = s.dataL := rfl
@[simp] theorem State.pushCmd_lenL (s : State) (w : CmdWord) : (s.pushCmd w).lenL = s.lenL := rfl
@[simp] theorem State.pushCmd_trace (s : State) (w : CmdWord) : (s.pushCmd w).trace = s.trace := rfl
@[simp] theorem State.pushCmd_env (s : State) (w : CmdWord) : (s.pushCmd w).env = { s.env with cmd := w :: s.env.cmd } := rfl

/-! ### popTurn -/

@[simp] theorem State.popTurn_clkdiv (s : State) : (s.popTurn).clkdiv = s.clkdiv := rfl
@[simp] theorem State.popTurn_tmode (s : State) : (s.popTurn).tmode = s.tmode := rfl
@[simp] theorem State.popTurn_status (s : State) : (s.popTurn).status = s.status := rfl
@[simp] theorem State.popTurn_seq (s : State) : (s.popTurn).seq = s.seq := rfl
@[simp] theorem State.popTurn_dataL (s : State) : (s.popTurn).dataL = s.dataL := rfl
@[simp] theorem State.popTurn_lenL (s : State) : (s.popTurn).lenL = s.lenL := rfl
@[simp] theorem State.popTurn_trace (s : State) : (s.popTurn).trace = s.trace := rfl
@[simp] theorem State.popTurn_env (s : State) : (s.popTurn).env = { s.env with turns := s.env.turns.tail } := rfl

/-! ### pushTurn -/

@[simp] theorem State.pushTurn_clkdiv (s : State) (t : Turn) : (s.pushTurn t).clkdiv = s.clkdiv := rfl
@[simp] theorem State.pushTurn_tmode (s : State) (t : Turn) : (s.pushTurn t).tmode = s.tmode := rfl
@[simp] theorem State.pushTurn_status (s : State) (t : Turn) : (s.pushTurn t).status = s.status := rfl
@[simp] theorem State.pushTurn_seq (s : State) (t : Turn) : (s.pushTurn t).seq = s.seq := rfl
@[simp] theorem State.pushTurn_dataL (s : State) (t : Turn) : (s.pushTurn t).dataL = s.dataL := rfl
@[simp] theorem State.pushTurn_lenL (s : State) (t : Turn) : (s.pushTurn t).lenL = s.lenL := rfl
@[simp] theorem State.pushTurn_trace (s : State) (t : Turn) : (s.pushTurn t).trace = s.trace := rfl
@[simp] theorem State.pushTurn_env (s : State) (t : Turn) : (s.pushTurn t).env = { s.env with turns := t :: s.env.turns } := rfl

/-! ### readStat -/

@[simp] theorem State.readStat_clkdiv (s : State) : (s.readStat).clkdiv = s.clkdiv := rfl
@[simp] theorem State.readStat_tmode (s : State) : (s.readStat).tmode = s.tmode := rfl
@[simp] theorem State.readStat_status (s : State) : (s.readStat).status = s.status := rfl
@[simp] theorem State.readStat_seq (s : State) : (s.readStat).seq = s.seq := rfl
@[simp] theorem State.readStat_dataL (s : State) : (s.readStat).dataL = s.dataL := rfl
@[simp] theorem State.readStat_lenL (s : State) : (s.readStat).lenL = s.lenL := rfl
@[simp] theorem State.readStat_trace (s : State) : (s.readStat).trace = s.trace := rfl
@[simp] theorem State.readStat_env (s : State) : (s.readStat).env = { s.env with statReads := s.env.statReads ++ [s.stat] } := rfl

/-! ### raiseFault -/

@[simp] theorem State.raiseFault_clkdiv (s : State) (k : FaultBit) : (s.raiseFault k).clkdiv = s.clkdiv := by cases k <;> rfl
@[simp] theorem State.raiseFault_tmode (s : State) (k : FaultBit) : (s.raiseFault k).tmode = s.tmode := by cases k <;> rfl
@[simp] theorem State.raiseFault_seq (s : State) (k : FaultBit) : (s.raiseFault k).seq = s.seq := by cases k <;> rfl
@[simp] theorem State.raiseFault_dataL (s : State) (k : FaultBit) : (s.raiseFault k).dataL = s.dataL := by cases k <;> rfl
@[simp] theorem State.raiseFault_lenL (s : State) (k : FaultBit) : (s.raiseFault k).lenL = s.lenL := by cases k <;> rfl
@[simp] theorem State.raiseFault_trace (s : State) (k : FaultBit) : (s.raiseFault k).trace = s.trace := by cases k <;> rfl
@[simp] theorem State.raiseFault_env (s : State) (k : FaultBit) : (s.raiseFault k).env = s.env := by cases k <;> rfl
@[simp] theorem State.raiseFault_illegal (s : State) :
    (s.raiseFault .illegal).status = { s.status with illegal := true } := rfl
@[simp] theorem State.raiseFault_undefLen (s : State) :
    (s.raiseFault .undefLen).status = { s.status with undefLen := true } := rfl

/-! ### configure -/

@[simp] theorem State.configure_clkdiv (s : State) (f d : Byte) : (s.configure f d).clkdiv = clkdivOf f d := rfl
@[simp] theorem State.configure_tmode (s : State) (f d : Byte) : (s.configure f d).tmode = 0x41#8 := rfl
@[simp] theorem State.configure_status (s : State) (f d : Byte) : (s.configure f d).status = s.status := rfl
@[simp] theorem State.configure_seq (s : State) (f d : Byte) : (s.configure f d).seq = s.seq := rfl
@[simp] theorem State.configure_dataL (s : State) (f d : Byte) : (s.configure f d).dataL = s.dataL := rfl
@[simp] theorem State.configure_lenL (s : State) (f d : Byte) : (s.configure f d).lenL = s.lenL := rfl
@[simp] theorem State.configure_trace (s : State) (f d : Byte) : (s.configure f d).trace = s.trace ++ [.wrmode 0x41#8, .wrclk (clkdivOf f d)] := by
  simp [State.configure]
@[simp] theorem State.configure_env (s : State) (f d : Byte) : (s.configure f d).env = s.env := rfl

/-! ### stepIssue -/

@[simp] theorem State.stepIssue_clkdiv (s : State) (pos : Nat) (half : Fin 2) : (s.stepIssue pos half).clkdiv = s.clkdiv := rfl
@[simp] theorem State.stepIssue_tmode (s : State) (pos : Nat) (half : Fin 2) : (s.stepIssue pos half).tmode = s.tmode := rfl
@[simp] theorem State.stepIssue_status (s : State) (pos : Nat) (half : Fin 2) : (s.stepIssue pos half).status = s.status := rfl
@[simp] theorem State.stepIssue_seq (s : State) (pos : Nat) (half : Fin 2) : (s.stepIssue pos half).seq = .wait pos half := rfl
@[simp] theorem State.stepIssue_dataL (s : State) (pos : Nat) (half : Fin 2) : (s.stepIssue pos half).dataL = s.dataL := rfl
@[simp] theorem State.stepIssue_lenL (s : State) (pos : Nat) (half : Fin 2) : (s.stepIssue pos half).lenL = s.lenL := rfl
@[simp] theorem State.stepIssue_trace (s : State) (pos : Nat) (half : Fin 2) : (s.stepIssue pos half).trace = s.trace ++ [burstEvent s.dataL pos half] := rfl
@[simp] theorem State.stepIssue_env (s : State) (pos : Nat) (half : Fin 2) : (s.stepIssue pos half).env = s.env := rfl

/-! ### stepAck -/

@[simp] theorem State.stepAck_clkdiv (s : State) (pos : Nat) (half : Fin 2) : (s.stepAck pos half).clkdiv = s.clkdiv := rfl
@[simp] theorem State.stepAck_tmode (s : State) (pos : Nat) (half : Fin 2) : (s.stepAck pos half).tmode = s.tmode := rfl
@[simp] theorem State.stepAck_status (s : State) (pos : Nat) (half : Fin 2) : (s.stepAck pos half).status = s.status := rfl
@[simp] theorem State.stepAck_seq (s : State) (pos : Nat) (half : Fin 2) : (s.stepAck pos half).seq = seqAfterAck pos half := rfl
@[simp] theorem State.stepAck_dataL (s : State) (pos : Nat) (half : Fin 2) : (s.stepAck pos half).dataL = s.dataL := rfl
@[simp] theorem State.stepAck_lenL (s : State) (pos : Nat) (half : Fin 2) : (s.stepAck pos half).lenL = s.lenL := rfl
@[simp] theorem State.stepAck_trace (s : State) (pos : Nat) (half : Fin 2) : (s.stepAck pos half).trace = s.trace := rfl
@[simp] theorem State.stepAck_env (s : State) (pos : Nat) (half : Fin 2) : (s.stepAck pos half).env = s.env := rfl

/-! ### The views -/

@[simp] theorem State.popTurn_presented (s : State) : s.popTurn.presented = s.presented := rfl
@[simp] theorem State.popTurn_busy (s : State) : s.popTurn.busy = s.busy := rfl
@[simp] theorem State.popTurn_stat (s : State) : s.popTurn.stat = s.stat := rfl
@[simp] theorem State.pushTurn_nextTurn (s : State) (t : Turn) : (s.pushTurn t).nextTurn = t := rfl
@[simp] theorem State.pushCmd_presented (s : State) (w : CmdWord) : (s.pushCmd w).presented = some w := rfl

end Sys2Proof.Machine
end

