-- ==== Sys2Proof/Laws/Ops.lean ====
section
/-! SUPPORT. What each shared operation can do, said once: the proofs cite these instead of unfolding the operations. -/

namespace Sys2Proof.Machine

theorem whenIdle_of_idle {effect : State → State} {s : State} (h : s.seq = .idle) :
    whenIdle effect s = .next (effect s) := by simp [whenIdle, h]

theorem whenIdle_of_busy {effect : State → State} {s : State} (h : s.seq ≠ .idle) :
    whenIdle effect s = .next s := by
  unfold whenIdle
  split
  · contradiction
  · rfl
  · rfl

/-- The command port has two outcomes: the command's effect, or a state held off. -/
theorem whenIdle_next {effect : State → State} {s t : State} (h : whenIdle effect s = .next t) :
    (s.seq = .idle ∧ t = effect s) ∨ (s.seq ≠ .idle ∧ t = s) := by
  by_cases hq : s.seq = .idle
  · rw [whenIdle_of_idle hq] at h; cases h; exact .inl ⟨hq, rfl⟩
  · rw [whenIdle_of_busy hq] at h; cases h; exact .inr ⟨hq, rfl⟩

@[simp] theorem State.busy_eq_true (s : State) : s.busy = true ↔ s.seq ≠ .idle := by
  unfold State.busy
  split <;> simp_all

/-- HOST's move on the command port: it presents its first word, or nothing changes. -/
theorem hostTurn_next {s t : State} (h : hostTurn s = .next t) :
    (s.seq = .idle ∧ ∃ w, s.presented = some w ∧ acceptWord w s.popCmd = .next t) ∨ t = s := by
  unfold hostTurn at h
  split at h
  · next w hq hw => exact .inl ⟨hq, w, hw, h⟩
  all_goals cases h; exact .inr rfl

/-- BLOCK's move: the issue step, or nothing changes. -/
theorem blockTurn_next {s t : State} (h : blockTurn s = .next t) :
    (∃ pos half, s.seq = .issue pos half ∧ t = s.stepIssue pos half) ∨ t = s := by
  unfold blockTurn at h
  split at h
  · next pos half hq => cases h; exact .inl ⟨pos, half, hq, rfl⟩
  all_goals cases h; exact .inr rfl

/-- TRANSPORT's move: the completion step, or nothing changes. -/
theorem transportTurn_next {s t : State} (h : transportTurn s = .next t) :
    (∃ pos half, s.seq = .wait pos half ∧ t = s.stepAck pos half) ∨ t = s := by
  unfold transportTurn at h
  split at h
  · next pos half hq => cases h; exact .inl ⟨pos, half, hq, rfl⟩
  all_goals cases h; exact .inr rfl

/-- ENC's accepting step does one of three things. -/
theorem acceptEnc_cases (f d : Byte) (len : Count) (data : Word) (s : State) :
    (32 < len.toNat ∧ s.acceptEnc f d len data = s.raiseFault .illegal) ∨
    (len.toNat = 0 ∧ s.acceptEnc f d len data = (s.configure f d).raiseFault .undefLen) ∨
    (1 ≤ len.toNat ∧ len.toNat ≤ 32 ∧
      s.acceptEnc f d len data = ((s.configure f d).latch data len.toNat).setSeq (.issue (len.toNat - 1) 0)) := by
  unfold State.acceptEnc Config.lenMax Config.cmdWidth
  split
  · exact .inl ⟨‹_›, rfl⟩
  · split
    · exact .inr (.inl ⟨‹_›, rfl⟩)
    · exact .inr (.inr ⟨by omega, by omega, rfl⟩)

/-- What accepting a word does while SEQ is Idle. -/
theorem acceptWord_idle {w : CmdWord} {s : State} (h : s.seq = .idle) :
    (∃ why, decode w = .illegal why ∧ acceptWord w s = .next (s.raiseFault .illegal)) ∨
    (∃ f d, decode w = .legal (.cfg f d) ∧ acceptWord w s = .next (s.configure f d)) ∨
    (∃ f d len data, decode w = .legal (.enc f d len data) ∧
      acceptWord w s = .next (s.acceptEnc f d len data)) := by
  unfold acceptWord
  match hw : decode w with
  | .illegal why => exact .inl ⟨why, rfl, whenIdle_of_idle h⟩
  | .legal (.cfg f d) => exact .inr (.inl ⟨f, d, rfl, whenIdle_of_idle h⟩)
  | .legal (.enc f d len data) => exact .inr (.inr ⟨f, d, len, data, rfl, whenIdle_of_idle h⟩)

/-- Everything a step can do. -/
theorem step_cases {s t : State} (h : step s = .next t) :
    (s.nextTurn = .reset ∧ t = s.popTurn.resetBlock) ∨
    (s.nextTurn = .hostStat ∧ t = s.popTurn.readStat) ∨
    (s.nextTurn = .host ∧ s.seq = .idle ∧ ∃ w, s.presented = some w ∧ acceptWord w s.popTurn.popCmd = .next t) ∨
    (∃ pos half, s.nextTurn = .block ∧ s.seq = .issue pos half ∧ t = s.popTurn.stepIssue pos half) ∨
    (∃ pos half, s.nextTurn = .transport ∧ s.seq = .wait pos half ∧ t = s.popTurn.stepAck pos half) ∨
    (s.nextTurn ≠ .reset ∧ s.nextTurn ≠ .hostStat ∧ t = s.popTurn) := by
  have e : step s = takeTurn s.nextTurn s.popTurn := rfl
  rw [e] at h
  cases hn : s.nextTurn <;> rw [hn] at h
  case reset => cases h; exact .inl ⟨rfl, rfl⟩
  case hostStat => cases h; exact .inr (.inl ⟨rfl, rfl⟩)
  case host =>
    rcases hostTurn_next h with ⟨hq, w, hw, h⟩ | rfl
    · exact .inr (.inr (.inl ⟨rfl, hq, w, hw, h⟩))
    · simp
  case block =>
    rcases blockTurn_next h with ⟨pos, half, hq, rfl⟩ | rfl
    · exact .inr (.inr (.inr (.inl ⟨pos, half, rfl, hq, rfl⟩)))
    · simp
  case transport =>
    rcases transportTurn_next h with ⟨pos, half, hq, rfl⟩ | rfl
    · exact .inr (.inr (.inr (.inr (.inl ⟨pos, half, rfl, hq, rfl⟩))))
    · simp

end Sys2Proof.Machine
end

