-- ==== Sys2Proof/Laws/PerInstr.lean ====
section
/-! SUPPORT. Statements made once per instruction, as syntax. -/

namespace Sys2Proof.Laws

/-- Field RSV0 of a word made of its fields. -/
theorem fieldRsv0_wordOf (op rsv0 : BitVec 4) (freq duty : Byte) (len : Count) (rsv1 : BitVec 2) (data : Word) :
    fieldRsv0 (wordOf op rsv0 freq duty len rsv1 data) = rsv0 := by
  unfold fieldRsv0 wordOf
  rw [BitVec.extractLsb'_append_eq_of_le (by decide), BitVec.extractLsb'_append_eq_right]

/-- Field RSV1 of a word made of its fields. -/
theorem fieldRsv1_wordOf (op rsv0 : BitVec 4) (freq duty : Byte) (len : Count) (rsv1 : BitVec 2) (data : Word) :
    fieldRsv1 (wordOf op rsv0 freq duty len rsv1 data) = rsv1 := by
  unfold fieldRsv1 wordOf
  rw [BitVec.extractLsb'_append_eq_of_le (by decide), BitVec.extractLsb'_append_eq_of_le (by decide),
    BitVec.extractLsb'_append_eq_of_le (by decide), BitVec.extractLsb'_append_eq_of_le (by decide),
    BitVec.extractLsb'_append_eq_of_le (by decide), BitVec.extractLsb'_append_eq_right]

end Sys2Proof.Laws

namespace Sys2Proof.Laws.ReservedZero

/-- The word of an instruction has its reserved fields zero (30_encoding.md R52). -/
def Statement (i : Instr) : Prop := fieldRsv0 (encode i) = 0#4 ∧ fieldRsv1 (encode i) = 0#2

theorem cfg (freq duty : Byte) : Statement (.cfg freq duty) :=
  ⟨fieldRsv0_wordOf _ _ _ _ _ _ _, fieldRsv1_wordOf _ _ _ _ _ _ _⟩

theorem enc (freq duty : Byte) (len : Count) (data : Word) : Statement (.enc freq duty len data) :=
  ⟨fieldRsv0_wordOf _ _ _ _ _ _ _, fieldRsv1_wordOf _ _ _ _ _ _ _⟩

end Sys2Proof.Laws.ReservedZero
end

