-- ==== Sys2Proof/Laws/Pulse.lean ====
section
/-! SUPPORT. The burst sequence one bit at a time, and the registers and transactions one event at a time. -/

namespace Sys2Proof.Machine

@[simp] theorem burstSeq_zero (data : Word) : burstSeq data 0 = [] := rfl

/-- The burst pair of the top bit comes first. -/
theorem burstSeq_succ (data : Word) (len : Nat) :
    burstSeq data (len + 1) = burstPair data len ++ burstSeq data len := by
  simp [burstSeq, List.range_succ]

/-- Registers after one more event. -/
theorem replayRegs_append (es : List Event) (e : Event) :
    replayRegs (es ++ [e]) = (replayRegs es).receive e := by
  simp [replayRegs]

@[simp] theorem performedFrom_nil (r : TransportRegs) : performedFrom r [] = [] := rfl

@[simp] theorem performedFrom_xfer (r : TransportRegs) (n : Count) (p : Word) (es : List Event) :
    performedFrom r (.xfer n p :: es) =
      { count := n, pattern := p, clkdiv := r.clkdiv, tmode := r.tmode } :: performedFrom r es := rfl

@[simp] theorem performedFrom_wrmode (r : TransportRegs) (m : Byte) (es : List Event) :
    performedFrom r (.wrmode m :: es) = performedFrom { r with tmode := m } es := rfl

@[simp] theorem performedFrom_wrclk (r : TransportRegs) (v : Word) (es : List Event) :
    performedFrom r (.wrclk v :: es) = performedFrom { r with clkdiv := v } es := rfl

/-- TRANSPORT performs the later events with the registers the earlier ones left it. -/
theorem performedFrom_append (r : TransportRegs) (es fs : List Event) :
    performedFrom r (es ++ fs) = performedFrom r es ++ performedFrom (es.foldl TransportRegs.receive r) fs := by
  induction es generalizing r with
  | nil => rfl
  | cons e es ih => cases e <;> simp [ih, TransportRegs.receive]

end Sys2Proof.Machine
end

