-- ==== Sys2Proof/Laws/Run.lean ====
section
/-! SUPPORT. Runs one step at a time. -/

namespace Sys2Proof

open Sys2Proof.Machine

@[simp] theorem run_zero (s : State) : run 0 s = .next s := rfl

/-- A run of any core begins with a step of it. -/
theorem core_run_succ (M : Host.Core) (k : Nat) (s : M.State) :
    (∀ t, M.step s = .next t → M.run (k + 1) s = M.run k t) ∧
    (∀ r, M.step s = .fault r → M.run (k + 1) s = .fault r) ∧
    (∀ r, M.step s = .refused r → M.run (k + 1) s = .refused r) :=
  ⟨fun t h => by rw [Host.Core.run, h], fun r h => by rw [Host.Core.run, h], fun r h => by rw [Host.Core.run, h]⟩

/-- `run` is the host's run of the machine. -/
theorem run_eq_core (k : Nat) (s : State) : run k s = Host.Core.run Sys2Proof.core k s := by
  induction k generalizing s with
  | zero => rfl
  | succ k ih =>
    obtain ⟨h1, h2, h3⟩ := core_run_succ Sys2Proof.core k s
    unfold run
    split
    · next t ht => exact (ih t).trans (h1 t ht).symm
    · next r hr => exact (h2 r hr).symm
    · next r hr => exact (h3 r hr).symm

/-- A run begins with a step. -/
theorem run_succ_of_step {s t : State} {k : Nat} (h : step s = .next t) : run (k + 1) s = run k t := by
  rw [run, h]

/-- A run that goes on has taken its first step. -/
theorem run_succ_cases {s t : State} {k : Nat} (h : run (k + 1) s = .next t) :
    ∃ u, step s = .next u ∧ run k u = .next t := by
  rw [run] at h
  split at h
  · next u hu => exact ⟨u, hu, h⟩
  · cases h
  · cases h

/-- Runs compose. -/
theorem run_add {s t : State} {a b : Nat} (h : run a s = .next t) : run (a + b) s = run b t := by
  induction a generalizing s with
  | zero => cases h; simp
  | succ a ih =>
    obtain ⟨u, h1, h2⟩ := run_succ_cases h
    rw [Nat.succ_add, run_succ_of_step h1]
    exact ih h2

end Sys2Proof
end

