-- ==== Sys2Proof/Tests/Slice0.lean ====
section
/-! SUPPORT. Tests with expected values from the spec (95_test_vectors.md unless a comment says otherwise), and for each
statement with hypotheses a witness that meets them together. -/

namespace Sys2Proof.Tests

open Sys2Proof Sys2Proof.Machine

/-- The reset state with these words for HOST to present and these turns. -/
def fresh (cmd : List CmdWord) (turns : List Turn) : State :=
  { State.reset with env := { cmd := cmd, turns := turns, statReads := [] } }

/-- The reset state with the sequencer running bit `pos`, as the vectors of V5 have it: DATA_L = 0b1011, LEN_L = 4. -/
def running (q : Seq) (turns : List Turn) : State :=
  { fresh [] turns with seq := q, dataL := 0b1011#32, lenL := 4 }

/-- The low transaction of R73. -/
def lo : Event := .xfer 32#6 0x00000000#32

/-- The high transaction of R73. -/
def hi : Event := .xfer 32#6 0xFFFFFFFF#32

/-- The trace a step left, if it went on. -/
def traceOf (o : Host.Outcome State Fault Refusal) : Option (List Event) :=
  match o with
  | .next t => some t.trace
  | .fault _ => none
  | .refused _ => none

/-- The STATUS byte a step left, if it went on. -/
def statOf (o : Host.Outcome State Fault Refusal) : Option Byte :=
  match o with
  | .next t => some t.stat
  | .fault _ => none
  | .refused _ => none

/-- The sequencer state a step left, if it went on. -/
def seqOf (o : Host.Outcome State Fault Refusal) : Option Seq :=
  match o with
  | .next t => some t.seq
  | .fault _ => none
  | .refused _ => none

/-! ### Well-formedness (R50) -/

theorem test_wellFormed_refuses_len_33 : (Instr.enc 36#8 25#8 33#6 0#32).wellFormed = false := by decide
theorem test_wellFormed_refuses_len_63 : (Instr.enc 36#8 25#8 63#6 0#32).wellFormed = false := by decide
theorem test_wellFormed_takes_len_0_and_32 :
    (Instr.enc 0#8 255#8 0#6 0xFFFFFFFF#32).wellFormed = true ∧
    (Instr.enc 255#8 0#8 32#6 0#32).wellFormed = true ∧ (Instr.cfg 37#8 99#8).wellFormed = true := by decide

/-! ### Decoding (V1, R59) -/

theorem test_decode_cfg :
    decode 0x0000000000192401#64 = .legal (.cfg 36 25) ∧ decode 0x0000000000000001#64 = .legal (.cfg 0 0) ∧
    decode 0x0000000000213801#64 = .legal (.cfg 56 33) := by decide

theorem test_decode_enc :
    decode 0x0000000000192402#64 = .legal (.enc 36 25 0 0) ∧
    decode 0x0000000020192402#64 = .legal (.enc 36 25 32 0) ∧
    decode 0xFFFFFFFF20FFFF02#64 = .legal (.enc 255 255 32 0xFFFFFFFF) ∧
    decode 0x0000000008322602#64 = .legal (.enc 38 50 8 0) := by decide

theorem test_decode_illegal :
    decode 0x0000000000192411#64 = .illegal .reservedBits ∧ decode 0x0000000040192401#64 = .illegal .reservedBits ∧
    decode 0x0000000080192402#64 = .illegal .reservedBits ∧ decode 0x0000000100192401#64 = .illegal .cfgOperand ∧
    decode 0x0000000001192401#64 = .illegal .cfgOperand ∧ decode 0x0000000021192402#64 = .illegal .encLength ∧
    decode 0x000000003F192402#64 = .illegal .encLength ∧ decode 0x0000000000000000#64 = .illegal .reservedOp ∧
    decode 0x0000000000000003#64 = .illegal .reservedOp ∧ decode 0x000000000000000F#64 = .illegal .reservedOp := by
  decide

/-- R57's and R58's examples, and P1's word. -/
theorem test_encode :
    encode (.cfg 36 25) = 0x0000000000192401#64 ∧ encode (.enc 36 25 2 2) = 0x0000000202192402#64 ∧
    encode (.enc 38 33 4 0b1011) = 0x0000000B04212602#64 := by decide

theorem test_decodeTableWord :
    decodeTableWord 64 0x0000000202192402 = some (.enc 36 25 2 2) ∧ decodeTableWord 64 3 = none := by decide

/-! ### Assembler (R57, R58, P2 to P5) -/

theorem test_assemble_lines :
    assembleLines ["cfg f56, d50   ; a comment".toList, "".toList, "; only a comment".toList,
      "enc f36, d25, 3, 0b110".toList, "send 0b10, 2".toList, "enc f40, d100, 32, 0x8000_0001".toList,
      ".cmd 0x0000_0000_0000_0003".toList] =
    some [0x0000000000323801#64, 0x0000000603192402#64, 0x0000000202192402#64, 0x8000000120642802#64, 3#64] := by
  decide

/-- The model's choice of log 20. -/
theorem test_separators :
    readNumber "0x_1".toList = some 1 ∧ readNumber "0x1_".toList = some 1 ∧ readNumber "0b1__0".toList = some 2 ∧
    readNumber "0x_".toList = none ∧ readNumber "1_0".toList = none := by decide

theorem test_assemble_refuses :
    assembleLines ["cfg f256, d25".toList] = none ∧ assembleLines ["enc f36, d25, 33, 0".toList] = none ∧
    assembleLines ["send 0x1_0000_0000, 2".toList] = none ∧ assembleLines ["cfg f36".toList] = none := by decide

/-! ### The Carrier Configurator (V2) -/

theorem test_clkdiv_table :
    ([(36, 25), (36, 33), (36, 50), (36, 100), (38, 25), (38, 33), (38, 50), (38, 100)].map
      fun p : Byte × Byte => clkdivOf p.1 p.2) =
      [0x09DD3700#32, 0x09DD4A00#32, 0x09DD6F00#32, 0x09DDDE00#32,
       0x09D13400#32, 0x09D14600#32, 0x09D16900#32, 0x09D1D200#32] ∧
    ([(40, 25), (40, 33), (40, 50), (40, 100), (56, 25), (56, 33), (56, 50), (56, 100)].map
      fun p : Byte × Byte => clkdivOf p.1 p.2) =
      [0x09C73200#32, 0x09C74200#32, 0x09C76400#32, 0x09C7C800#32,
       0x098E2300#32, 0x098E2F00#32, 0x098E4700#32, 0x098E8F00#32] := by decide

theorem test_clkdiv_fallbacks :
    ([(0, 0), (37, 50), (40, 24), (56, 101), (255, 100), (99, 99)].map fun p : Byte × Byte => clkdivOf p.1 p.2) =
      [0x09DD3700#32, 0x09DD6F00#32, 0x09C73200#32, 0x098E2300#32, 0x09DDDE00#32, 0x09DD3700#32] := by decide

/-- CFG through the command port: the two events in order, STATUS 0/0, Idle. -/
theorem test_cfg_step :
    traceOf (step (fresh [0x0000000000323801#64] [])) = some [.wrmode 0x41#8, .wrclk 0x098E4700#32] ∧
    statOf (step (fresh [0x0000000000323801#64] [])) = some 0#8 := by decide

/-- V6: CFG leaves a set ILLEGAL bit set. -/
theorem test_cfg_keeps_illegal :
    statOf (exec (.cfg 36 25) { State.reset with status := { illegal := true, undefLen := false } }) = some 1#8 := by
  decide

/-! ### The Pulse Encoder (V3 to V6) -/

theorem test_burstSeq :
    burstSeq 0 1 = [hi, lo] ∧ burstSeq 1 1 = [lo, hi] ∧ burstSeq 0b10 2 = [lo, hi, hi, lo] ∧
    burstSeq 0b01 2 = [hi, lo, lo, hi] ∧ burstSeq 0b1011 4 = [lo, hi, hi, lo, lo, hi, lo, hi] ∧
    burstSeq 0xFFFFFFF2 2 = [lo, hi, hi, lo] ∧ (burstSeq 0x80000000 32).take 4 = [lo, hi, hi, lo] := by decide

theorem test_enc_step :
    traceOf (exec (.enc 56 33 2 1) State.reset) = some [.wrmode 0x41#8, .wrclk 0x098E2F00#32] ∧
    seqOf (exec (.enc 56 33 2 1) State.reset) = some (.issue 1 0) ∧
    statOf (exec (.enc 56 33 2 1) State.reset) = some 0b100#8 := by decide

/-- V4: LEN = 0 configures, sets UNDEF_LEN, stays Idle. -/
theorem test_enc_len_0 :
    traceOf (exec (.enc 40 50 0 5) State.reset) = some [.wrmode 0x41#8, .wrclk 0x09C76400#32] ∧
    statOf (exec (.enc 40 50 0 5) State.reset) = some 0b010#8 := by decide

/-- V4 and V6: an ILLEGAL word sets its bit and does nothing else. -/
theorem test_illegal_words :
    statOf (step (fresh [0x0000000021192402#64] [])) = some 1#8 ∧
    traceOf (step (fresh [0x0000000021192402#64] [])) = some [] ∧
    statOf (step (fresh [0x0000000000000003#64] [])) = some 1#8 := by decide

theorem test_issue_steps :
    traceOf (step (running (.issue 3 0) [.block])) = some [lo] ∧
    seqOf (step (running (.issue 3 0) [.block])) = some (.wait 3 0) ∧
    traceOf (step (running (.issue 3 1) [.block])) = some [hi] ∧
    traceOf (step (running (.issue 2 0) [.block])) = some [hi] := by decide

theorem test_completion_steps :
    seqOf (step (running (.wait 3 0) [.transport])) = some (.issue 3 1) ∧
    seqOf (step (running (.wait 3 1) [.transport])) = some (.issue 2 0) ∧
    seqOf (step (running (.wait 0 0) [.transport])) = some (.issue 0 1) ∧
    seqOf (step (running (.wait 0 1) [.transport])) = some .idle ∧
    seqOf (step (running (.wait 3 0) [.block])) = some (.wait 3 0) := by decide

/-- V7: reset in the middle of a command, and an ACK after it. -/
theorem test_reset_step :
    step (running (.wait 3 1) [.reset]) = .next State.reset ∧
    step (fresh [] [.transport]) = .next State.reset := ⟨rfl, rfl⟩

/-- HOST's read of STAT while a command runs (R25). -/
theorem test_stat_read : (running (.wait 3 1) []).readStat.env.statReads = [0b100#8] := by decide

/-- A word offered to a busy block waits (R115). -/
theorem test_busy_holds_word_off :
    step { fresh [0x0000000000192401#64] [.host] with seq := .wait 0 1, lenL := 1 } =
      .next { fresh [0x0000000000192401#64] [] with seq := .wait 0 1, lenL := 1 } := rfl

/-- The word offered with `withFetchWord` is the next one run. -/
theorem test_withFetchWord :
    traceOf (step (State.reset.withFetchWord 64 0x0000000000192401)) =
      some [.wrmode 0x41#8, .wrclk 0x09DD3700#32] ∧
    seqOf (step (State.reset.withFetchWord 64 0x0000000B04212602)) = some (.issue 3 0) := by decide

/-- R90: 2220 reference ticks for the 36 kHz row and 1430 for 56. -/
theorem test_periodTicks : periodTicks 0x09DD3700#32 = 2220 ∧ periodTicks 0x098E2300#32 = 1430 := by decide

/-! ### Witnesses: a state and operands that meet all hypotheses of a statement -/

theorem witness_DecodeOfEncode :
    (Instr.cfg 255 0).wellFormed = true ∧ (Instr.enc 255 255 32 0xFFFFFFFF).wellFormed = true ∧
    (Instr.enc 0 0 0 0).wellFormed = true := by decide

theorem witness_EncodeOfDecode :
    decode 0xFFFFFFFF20FFFF02#64 = .legal (.enc 255 255 32 0xFFFFFFFF) ∧ decode 1#64 = .legal (.cfg 0 0) := by decide

theorem witness_DecodeByMaskAndMatch_cfg :
    0x0000000000FFFF01#64 &&& 0xFFFFFFFFFF0000FF#64 = 0x0000000000000001#64 := by decide

theorem witness_DecodeByMaskAndMatch_enc :
    0xFFFFFFFF20FFFF02#64 &&& 0x00000000C00000FF#64 = 0x0000000000000002#64 ∧
    (0xFFFFFFFF20FFFF02#64 : CmdWord).extractLsb' 24 6 = 32#6 ∧
    (0x0000000000000002#64 : CmdWord).extractLsb' 24 6 = 0#6 ∧
    0x0000000000000002#64 &&& 0x00000000C00000FF#64 = 0x0000000000000002#64 := by decide

theorem witness_DecodeByMaskAndMatch_illegal :
    ¬ 0x0000000021192402#64 &&& 0xFFFFFFFFFF0000FF#64 = 0x0000000000000001#64 ∧
    ¬ (0x0000000021192402#64 &&& 0x00000000C00000FF#64 = 0x0000000000000002#64 ∧
      ((0x0000000021192402#64 : CmdWord).extractLsb' 24 6).toNat ≤ 32) ∧
    ¬ 0x0000000001192401#64 &&& 0xFFFFFFFFFF0000FF#64 = 0x0000000000000001#64 ∧
    ¬ 0x0000000001192401#64 &&& 0x00000000C00000FF#64 = 0x0000000000000002#64 := by decide

/-- One word for each case of R54, with the state of the last clause. -/
theorem witness_IllegalEncodings :
    (∃ why, decode 0x0000000000192403#64 = .illegal why) ∧ (∃ why, decode 0x0000000000192411#64 = .illegal why) ∧
    (∃ why, decode 0x0000000100192401#64 = .illegal why) ∧ (∃ why, decode 0x0000000021192402#64 = .illegal why) ∧
    (fresh [] []).seq = .idle :=
  ⟨⟨.reservedOp, by decide⟩, ⟨.reservedBits, by decide⟩, ⟨.cfgOperand, by decide⟩, ⟨.encLength, by decide⟩, rfl⟩

theorem witness_SendIsReferenceEnc : 32 ≤ 32 ∧ 0xFFFFFFFF < 2 ^ 32 ∧ 0 ≤ 32 := by decide

theorem witness_AssembledLinesDecode : 255 ≤ 255 ∧ 0 ≤ 255 ∧ 32 ≤ 32 ∧ 0xFFFFFFFF ≤ 2 ^ 32 - 1 := by decide

theorem witness_UnrecognizedFrequencyFallsBack :
    (37#8).toNat ≠ 36 ∧ (37#8).toNat ≠ 38 ∧ (37#8).toNat ≠ 40 ∧ (37#8).toNat ≠ 56 ∧
    (255#8).toNat ≠ 36 ∧ (255#8).toNat ≠ 38 ∧ (255#8).toNat ≠ 40 ∧ (255#8).toNat ≠ 56 ∧
    (fresh [] []).seq = .idle ∧ 1 ≤ (1#6).toNat ∧ (1#6).toNat ≤ 32 ∧ 1 ≤ (32#6).toNat ∧ (32#6).toNat ≤ 32 := by decide

theorem witness_UnrecognizedDutyFallsBack :
    (0#8).toNat ≠ 25 ∧ (0#8).toNat ≠ 33 ∧ (0#8).toNat ≠ 50 ∧ (0#8).toNat ≠ 100 ∧
    (99#8).toNat ≠ 25 ∧ (99#8).toNat ≠ 33 ∧ (99#8).toNat ≠ 50 ∧ (99#8).toNat ≠ 100 ∧
    (fresh [] []).seq = .idle ∧ 1 ≤ (1#6).toNat ∧ (1#6).toNat ≤ 32 ∧ 1 ≤ (32#6).toNat ∧ (32#6).toNat ≤ 32 := by decide

theorem witness_ClkdivFieldsExact : 1 ≤ 1 ∧ 1 ≤ (timing 0 0).1 ∧ 1 ≤ (timing 56 100).2.1 := by decide

/-- Serves CfgCompletes and the CFG clause of LegalCommandsNeverFault. -/
theorem witness_CfgCompletes : (fresh [0#64] [.block]).seq = .idle := rfl

theorem witness_ConfiguredTransportMode :
    (Instr.enc 0 100 0 0).wellFormed = true ∧ (Instr.cfg 36 25).wellFormed = true ∧ (fresh [] []).seq = .idle := by
  decide

/-- With the least and the greatest LEN that leave no fault bit set, and LEN = 0 at the edge of the hypotheses. -/
theorem witness_EncOverwritesEarlierCfg :
    (fresh [] []).seq = .idle ∧ (0#6).toNat ≤ 32 ∧ (1#6).toNat ≤ 32 ∧ (32#6).toNat ≤ 32 ∧
    (∃ t u, exec (.cfg 56 50) (fresh [] []) = .next t ∧ exec (.enc 36 25 1 1) t = .next u ∧ u.noFault) ∧
    ∃ t u, exec (.cfg 56 50) (fresh [] []) = .next t ∧ exec (.enc 36 25 32 1) t = .next u ∧ u.noFault :=
  ⟨rfl, by decide, by decide, by decide, ⟨_, _, rfl, rfl, rfl, rfl⟩, _, _, rfl, rfl, rfl, rfl⟩

/-- Serves EncCompletes and LegalCommandsNeverFault. -/
theorem witness_EncCompletes :
    (fresh [] []).seq = .idle ∧ 1 ≤ (1#6).toNat ∧ (1#6).toNat ≤ 32 ∧ 1 ≤ (32#6).toNat ∧ (32#6).toNat ≤ 32 := by decide

theorem witness_LegalCommandsNeverFault :
    (fresh [] []).seq = .idle ∧ 1 ≤ (1#6).toNat ∧ (1#6).toNat ≤ 32 ∧ 1 ≤ (32#6).toNat ∧ (32#6).toNat ≤ 32 := by decide

theorem witness_CfgTwiceLeavesSameRegisters :
    (fresh [] []).seq = .idle ∧
    ∃ t u, exec (.cfg 36 100) (fresh [] []) = .next t ∧ exec (.cfg 36 100) t = .next u ∧ u.noFault :=
  ⟨rfl, _, _, rfl, rfl, rfl, rfl⟩

theorem witness_FaultingWordEffects :
    decode 0x000000003F192402#64 = .illegal .encLength ∧ (fresh [] []).seq = .idle := by decide

theorem witness_BusyBlockHoldsCommandsOff :
    (running (.issue 3 0) []).seq ≠ .idle ∧ (running (.wait 0 1) []).seq ≠ .idle := by decide

theorem witness_IssueStepEmitsTransaction :
    (running (.issue 3 0) []).seq = .issue 3 0 ∧ (running (.issue 0 1) []).seq = .issue 0 1 := by decide

/-- Each of the three branches: the first half, the second half of bit 0, the second half of a later bit. -/
theorem witness_AckStepAdvancesSequencer :
    (running (.wait 0 0) []).seq = .wait 0 0 ∧ (running (.wait 0 1) []).seq = .wait 0 1 ∧
    (running (.wait 1 1) []).seq = .wait 1 1 := by decide

theorem witness_BurstSequenceShape : 0 < 1 ∧ 31 < 32 := by decide

/-- LEN = 1 with other turns before both acknowledgements. -/
def encWaits : List (List Turn) := [[.host, .hostStat], [.block]]

theorem witness_EncRunEmitsBurstSequence :
    let s := fresh [encode (.enc 36 25 1 1), 3#64] (ackSchedule encWaits ++ [.reset])
    s.seq = .idle ∧ 1 ≤ (1#6).toNat ∧ (1#6).toNat ≤ 32 ∧ s.env.cmd = encode (.enc 36 25 1 1) :: [3#64] ∧
    encWaits.length = 2 * (1#6).toNat ∧ s.env.turns = ackSchedule encWaits ++ [.reset] ∧
    (∀ ts ∈ encWaits, ∀ t ∈ ts, t.quiet) ∧
    ∃ t, run (ackSchedule encWaits).length s = .next t ∧ t.noFault := by
  refine ⟨rfl, by decide, by decide, rfl, rfl, rfl, ?_, _, rfl, rfl, rfl⟩
  simp [encWaits, Turn.quiet]

theorem witness_EncRunEmitsBurstSequence_len_32 :
    let s := fresh [encode (.enc 56 33 32 0x80000001)] (ackSchedule (List.replicate 64 []))
    s.seq = .idle ∧ 1 ≤ (32#6).toNat ∧ (32#6).toNat ≤ 32 ∧ s.env.cmd = encode (.enc 56 33 32 0x80000001) :: [] ∧
    (List.replicate 64 ([] : List Turn)).length = 2 * (32#6).toNat ∧
    s.env.turns = ackSchedule (List.replicate 64 []) ++ [] ∧
    (∀ ts ∈ List.replicate 64 ([] : List Turn), ∀ t ∈ ts, t.quiet) := by
  refine ⟨rfl, by decide, by decide, rfl, by decide, by simp [fresh], ?_⟩
  intro ts h t ht
  rw [List.eq_of_mem_replicate h] at ht
  cases ht

/-- P5's data: they agree in their low two bits only. -/
theorem witness_HighDataBitsIgnored :
    let s := fresh [] []
    s.seq = .idle ∧ (∀ i < (2#6).toNat, (0xFFFFFFF2#32).getLsbD i = (2#32).getLsbD i) ∧
    (∃ t, run 3 { s with env := { s.env with cmd := encode (.enc 36 25 2 0xFFFFFFF2) :: [] } } = .next t ∧
      t.noFault) ∧
    ∃ u, run 3 { s with env := { s.env with cmd := encode (.enc 36 25 2 2) :: [] } } = .next u :=
  ⟨rfl, by decide, ⟨_, rfl, rfl, rfl⟩, _, rfl⟩

theorem witness_RunningCommandOnlyTransmits :
    let s := running (.issue 3 0) []
    s.seq ≠ .idle ∧ s.nextTurn ≠ .reset ∧ ∃ t, step s = .next t := ⟨by decide, by decide, _, rfl⟩

theorem witness_RunningCommandOnlyTransmits_wait :
    let s := running (.wait 0 1) [.transport]
    s.seq ≠ .idle ∧ s.nextTurn ≠ .reset ∧ ∃ t, step s = .next t := ⟨by decide, by decide, _, rfl⟩

theorem witness_OneTransactionOutstanding_issue :
    let s := running (.issue 0 1) [.block]
    ∃ t, step s = .next t ∧ t.trace = s.trace ++ [.xfer 32#6 0xFFFFFFFF#32] := ⟨_, rfl, rfl⟩

theorem witness_OneTransactionOutstanding_kept :
    let s := running (.wait 3 0) [.host]
    s.inFlight ≠ none ∧ s.nextTurn ≠ .transport ∧ s.nextTurn ≠ .reset ∧ ∃ t, step s = .next t :=
  ⟨by decide, by decide, by decide, _, rfl⟩

theorem witness_OneTransactionOutstanding_ended :
    let s := running (.wait 0 1) [.transport]
    s.inFlight ≠ none ∧ s.nextTurn = .transport ∧ ∃ t, step s = .next t := ⟨by decide, rfl, _, rfl⟩

/-- The state after the first transaction of `enc f36, d25, 1, 1` has been issued. -/
def inWait : State :=
  { State.reset with
    clkdiv := clkdivOf 36 25, tmode := 0x41#8, seq := .wait 0 0, dataL := 1#32, lenL := 1
    trace := [.wrmode 0x41#8, .wrclk (clkdivOf 36 25), lo] }

/-- The invariant holds in a state with a transaction in flight, and a step is taken from it. -/
theorem witness_inv_inWait : inWait.Inv ∧ inWait.inFlight ≠ none ∧ ∃ t, step inWait = .next t := by
  refine ⟨⟨by decide, (by decide : 0 < 1), by decide, ?_, fun _ => ⟨[], 36, 25, by decide⟩⟩, by decide, _, rfl⟩
  intro e he
  simp only [inWait, List.mem_cons, List.not_mem_nil, or_false] at he
  rcases he with rfl | rfl | rfl
  · rfl
  · exact ⟨36, 25, rfl⟩
  · exact ⟨rfl, .inr rfl⟩

/-- Serves TransactionUnderOwnCarrier. -/
theorem witness_TransactionUnderOwnCarrier :
    inWait.Inv ∧
    inWait.inFlight = some { count := 32#6, pattern := 0#32, clkdiv := clkdivOf 36 25, tmode := 0x41#8 } :=
  ⟨witness_inv_inWait.1, by decide⟩

/-- Serves StepKeepsInvariant. -/
theorem witness_StepKeepsInvariant : inWait.Inv ∧ ∃ t, step inWait = .next t :=
  ⟨witness_inv_inWait.1, witness_inv_inWait.2.2⟩

theorem witness_SerialBitOrder : 0 < (1#6).toNat ∧ 31 < (32#6).toNat := by decide

theorem witness_WaitsForeverWithoutAck :
    let s := running (.wait 3 0) [.host, .hostStat, .block, .transport]
    s.seq = .wait 3 0 ∧ (∀ t ∈ s.env.turns.take 3, t.quiet) ∧ ∃ t, run 3 s = .next t ∧ t.noFault :=
  ⟨rfl, by simp [running, fresh, Turn.quiet], _, rfl, rfl, rfl⟩

/-- With no turn listed the wait goes on for any number of steps. -/
theorem witness_WaitsForeverWithoutAck_no_turns :
    let s := running (.wait 3 0) []
    s.seq = .wait 3 0 ∧ (∀ t ∈ s.env.turns.take 100, t.quiet) := ⟨rfl, by simp [running, fresh]⟩

theorem witness_StatusBits_illegal :
    let s := fresh [3#64] []
    s.seq = .idle ∧ s.nextTurn = .host ∧ s.presented = some 3#64 ∧ decode 3#64 = .illegal .reservedOp ∧
    s.nextTurn ≠ .reset ∧ s.status.illegal = false ∧ ∃ t, step s = .next t ∧ t.status.illegal = true :=
  ⟨rfl, rfl, rfl, by decide, by decide, rfl, _, rfl, rfl⟩

theorem witness_StatusBits_undefLen :
    let s := fresh [encode (.enc 36 25 0 5)] []
    s.seq = .idle ∧ s.nextTurn = .host ∧ s.presented = some (encode (.enc 36 25 0 5)) ∧
    decode (encode (.enc 36 25 0 5)) = .legal (.enc 36 25 0#6 5) ∧
    s.nextTurn ≠ .reset ∧ s.status.undefLen = false ∧ ∃ t, step s = .next t ∧ t.status.undefLen = true :=
  ⟨rfl, rfl, rfl, by decide, by decide, rfl, _, rfl, rfl⟩

theorem witness_StatusBits_sticky_and_reset :
    let s : State := { fresh [encode (.cfg 36 25)] [] with status := { illegal := true, undefLen := true } }
    (s.nextTurn ≠ .reset ∧ s.status.illegal = true ∧ s.status.undefLen = true ∧ ∃ t, step s = .next t) ∧
    { s with env := { s.env with turns := [.reset] } }.nextTurn = .reset ∧ 3 ≤ 3 ∧ 3 ≤ 7 :=
  ⟨⟨by decide, rfl, rfl, _, rfl⟩, rfl, by decide, by decide⟩

theorem witness_AtMostOneFaultPerStep :
    ∃ t, step (fresh [encode (.enc 36 25 0 5)] []) = .next t ∧ t.status.undefLen = true := ⟨_, rfl, rfl⟩

/-- A run that sets a fault bit, one that sets none, and one that begins with both set. -/
theorem witness_FaultBitsStayUntilReset :
    (∃ t, run 2 (fresh [3#64] [.host, .block]) = .next t ∧ t.status.illegal = true) ∧
    (∀ τ ∈ (fresh [3#64] [.host, .block]).env.turns.take 2, τ ≠ .reset) ∧
    (∃ t, run 2 (fresh [1#64] [.host, .block]) = .next t ∧ t.noFault) ∧
    let u : State := { fresh [1#64] [.host, .block] with status := { illegal := true, undefLen := true } }
    u.status.illegal = true ∧ u.status.undefLen = true ∧ (∀ τ ∈ u.env.turns.take 2, τ ≠ .reset) ∧
    ∃ t, run 2 u = .next t :=
  ⟨⟨_, rfl, rfl⟩, by decide, ⟨_, rfl, rfl, rfl⟩, rfl, rfl, by decide, _, rfl⟩

theorem witness_BusyIsSeqNotIdle :
    (running (.wait 3 0) []).busy = true ∧ (fresh [] []).busy = false := by decide

theorem witness_CommandPortLosesNoWord :
    (∃ t, step (fresh [1#64, 3#64] []) = .next t ∧ t.env.cmd = [3#64]) ∧
    (running (.wait 3 0) [.host]).stat.getLsbD 2 = true ∧ ∃ t, step (running (.wait 3 0) [.host]) = .next t :=
  ⟨⟨_, rfl, rfl⟩, by decide, _, rfl⟩

theorem witness_RunningCommandIgnoresCmdPort :
    (running (.issue 3 0) [.block]).seq ≠ .idle ∧ ∃ t, step (running (.issue 3 0) [.block]) = .next t :=
  ⟨by decide, _, rfl⟩

theorem witness_OnlyTheBlockWritesTransport :
    ∃ t, step (fresh [encode (.cfg 36 25)] []) = .next t ∧ t.clkdiv ≠ (fresh [encode (.cfg 36 25)] []).clkdiv :=
  ⟨_, rfl, by decide⟩

theorem witness_ResetEndsCommand :
    (running (.wait 3 1) [.reset]).nextTurn = .reset ∧ (fresh [] [.transport]).seq = .idle ∧
    (fresh [] [.transport]).nextTurn ≠ .host ∧ (fresh [] [.transport]).nextTurn ≠ .reset ∧
    ∃ t, step (fresh [] [.transport]) = .next t := ⟨rfl, rfl, by decide, by decide, _, rfl⟩

theorem witness_ResetValuesUnobservable :
    let s := fresh [encode (.enc 36 25 1 1)] []
    (∃ t, run 3 s = .next t ∧ t.noFault) ∧
    (∃ u, run 3 { s with clkdiv := 0xFFFFFFFF#32, tmode := 0xBE#8 } = .next u) ∧
    ({ count := 32#6, pattern := 0xFFFFFFFF#32, clkdiv := 0#32, tmode := 0#8 } : Transaction).tmode =
      State.reset.tmode := ⟨⟨_, rfl, rfl, rfl⟩, ⟨_, rfl⟩, rfl⟩

theorem witness_LatchesWrittenByEncOnly :
    let s := fresh [encode (.enc 36 25 1 1)] []
    (∃ t, step s = .next t ∧ t.lenL = 1) ∧ s.nextTurn ≠ .reset ∧ s.seq = .idle ∧
    (∃ t, run 3 s = .next t ∧ t.noFault) ∧
    ∃ u, run 3 { s with dataL := 0xFFFFFFFF#32, lenL := 32 } = .next u :=
  ⟨⟨_, rfl, rfl⟩, by decide, rfl, ⟨_, rfl, rfl, rfl⟩, _, rfl⟩

theorem witness_StepRunsDecodedCommand :
    let s := fresh [0x0000000202192402#64, 3#64] [.host, .block]
    s.seq = .idle ∧ s.nextTurn = .host ∧ s.env.cmd = 0x0000000202192402#64 :: [3#64] ∧
    decode 0x0000000202192402#64 = .legal (.enc 36 25 2 2) ∧
    decodeTableWord 64 0x0000000202192402 = some (.enc 36 25 2 2) :=
  ⟨rfl, rfl, rfl, by decide, by decide⟩

theorem witness_StepRunsDecodedCommand_illegal :
    let s := fresh [0x0000000021192402#64, 1#64] [.host, .block]
    s.seq = .idle ∧ s.nextTurn = .host ∧ s.env.cmd = 0x0000000021192402#64 :: [1#64] ∧
    decode 0x0000000021192402#64 = .illegal .encLength :=
  ⟨rfl, rfl, rfl, by decide⟩

/-- One state for each turn, and the two defaults. -/
theorem witness_StepMovesTheAgentWhoseTurnItIs :
    (fresh [] [.host]).nextTurn = .host ∧ (fresh [] [.hostStat]).nextTurn = .hostStat ∧
    (fresh [] [.block]).nextTurn = .block ∧ (fresh [] [.transport]).nextTurn = .transport ∧
    (fresh [] [.reset]).nextTurn = .reset ∧
    (fresh [] []).env.turns = [] ∧ (fresh [] []).seq = .idle ∧
    (running (.wait 3 0) []).env.turns = [] ∧ (running (.wait 3 0) []).seq ≠ .idle := by decide

theorem witness_TraceGrowsByEmittableEvents :
    (fresh [encode (.cfg 36 25)] []).nextTurn ≠ .reset ∧ ∃ t, step (fresh [encode (.cfg 36 25)] []) = .next t :=
  ⟨by decide, _, rfl⟩

/-- H = N at most: the largest H that R91 speaks of, and the value of a selector pair. -/
theorem witness_SclkHighFirst :
    (clkH 0x09DDDD00#32).toNat ≤ (clkN 0x09DDDD00#32).toNat ∧
    (clkH 0x09DD3700#32).toNat ≤ (clkN 0x09DD3700#32).toNat ∧ (99#8).toNat ≠ 100 ∧ (101#8).toNat ≠ 100 := by decide

/-- A one bit early in its first period, and the two uniform patterns at their last tick. -/
theorem witness_OutputIsGatedCarrier :
    let x : Transaction := { count := 32#6, pattern := 0xFFFFFFFF#32, clkdiv := 0x09DD3700#32, tmode := 0x41#8 }
    x.tmode = 0x41#8 ∧ irOutput x 0 0 = true ∧ x.count = 32#6 ∧ 71039 < 32 * periodTicks x.clkdiv ∧
    { x with pattern := 0x00000000#32 }.pattern = 0x00000000#32 := by decide

theorem witness_LowFieldHasNoEffect :
    clkPre 0x09DD3700#32 = clkPre 0x09DD37FF#32 ∧ clkN 0x09DD3700#32 = clkN 0x09DD37FF#32 ∧
    clkH 0x09DD3700#32 = clkH 0x09DD37FF#32 ∧ (clkH 0x09DD3700#32).toNat ≤ (clkN 0x09DD3700#32).toNat := by decide

end Sys2Proof.Tests
end

section
/-! PROOFS of 20_memory.md: the registers TRANSPORT holds after a list of events, and the transactions it performs
under them. -/

namespace Sys2Proof.Machine

@[simp] theorem TransportRegs.receive_wrmode (r : TransportRegs) (m : Byte) :
    r.receive (.wrmode m) = { r with tmode := m } := rfl

@[simp] theorem TransportRegs.receive_wrclk (r : TransportRegs) (v : Word) :
    r.receive (.wrclk v) = { r with clkdiv := v } := rfl

@[simp] theorem TransportRegs.receive_xfer (r : TransportRegs) (n : Count) (p : Word) :
    r.receive (.xfer n p) = r := rfl

/-- CLKDIV after some events is the last value a WRCLK among them wrote, else the value before (R42). -/
theorem foldl_receive_clkdiv (r : TransportRegs) (es : List Event) :
    (es.foldl TransportRegs.receive r).clkdiv =
      (es.filterMap Event.clkdivWritten).getLast?.getD r.clkdiv := by
  induction es generalizing r with
  | nil => rfl
  | cons e es ih =>
    cases e with
    | wrmode m => simp [ih, Event.clkdivWritten]
    | wrclk v => simp [ih, Event.clkdivWritten, List.getLast?_cons]
    | xfer n p => simp [ih, Event.clkdivWritten]

/-- TMODE after some events is the last value a WRMODE among them wrote, else the value before (R42). -/
theorem foldl_receive_tmode (r : TransportRegs) (es : List Event) :
    (es.foldl TransportRegs.receive r).tmode =
      (es.filterMap Event.tmodeWritten).getLast?.getD r.tmode := by
  induction es generalizing r with
  | nil => rfl
  | cons e es ih =>
    cases e with
    | wrmode m => simp [ih, Event.tmodeWritten, List.getLast?_cons]
    | wrclk v => simp [ih, Event.tmodeWritten]
    | xfer n p => simp [ih, Event.tmodeWritten]

end Sys2Proof.Machine

namespace Sys2Proof.Proofs

open Sys2Proof.Machine

/-- Settles O31: the earlier events fix the registers of the transaction, and the later ones are performed after it,
from the same registers, since an XFER writes none. -/
theorem performedUnderLastWrites : Obligations.PerformedUnderLastWrites := by
  intro r before after n p
  refine ⟨performedFrom (before.foldl TransportRegs.receive r) after, ?_⟩
  rw [List.append_assoc, performedFrom_append, List.singleton_append, performedFrom_xfer,
    foldl_receive_clkdiv, foldl_receive_tmode, List.append_assoc, List.singleton_append]

end Sys2Proof.Proofs
end

section
/-! PROOFS of 30_encoding.md: the command word as its seven fields, the decoder said by the fields of the word, the
masks of R53 and the cases of R54 as conditions on the fields, and the word of a `send` line. -/

namespace Sys2Proof

/-! ### A word and its fields (R46) -/

/-- The seven fields cover the word: put together again, they are the word. Each join takes in the next lower field. -/
theorem wordOf_fields (w : CmdWord) :
    wordOf (fieldOp w) (fieldRsv0 w) (fieldFreq w) (fieldDuty w) (fieldLen w) (fieldRsv1 w) (fieldData w) = w := by
  unfold wordOf fieldOp fieldRsv0 fieldFreq fieldDuty fieldLen fieldRsv1 fieldData
  iterate 6 rw [BitVec.extractLsb'_append_extractLsb'_eq_extractLsb' ?_]
  · exact BitVec.extractLsb'_eq_self
  all_goals rfl

/-- Two words are equal exactly when they agree in every field. -/
theorem eq_iff_fields (v w : CmdWord) :
    v = w ↔ fieldOp v = fieldOp w ∧ fieldRsv0 v = fieldRsv0 w ∧ fieldFreq v = fieldFreq w ∧
      fieldDuty v = fieldDuty w ∧ fieldLen v = fieldLen w ∧ fieldRsv1 v = fieldRsv1 w ∧ fieldData v = fieldData w := by
  refine ⟨fun h => by simp [h], fun ⟨hop, hrsv0, hfreq, hduty, hlen, hrsv1, hdata⟩ => ?_⟩
  rw [← wordOf_fields v, ← wordOf_fields w, hop, hrsv0, hfreq, hduty, hlen, hrsv1, hdata]

/-- A mask and match pair asks each field of the word for its own part of the mask and the match. -/
theorem and_eq_iff_fields (w mask v : CmdWord) :
    w &&& mask = v ↔ fieldOp w &&& fieldOp mask = fieldOp v ∧ fieldRsv0 w &&& fieldRsv0 mask = fieldRsv0 v ∧
      fieldFreq w &&& fieldFreq mask = fieldFreq v ∧ fieldDuty w &&& fieldDuty mask = fieldDuty v ∧
      fieldLen w &&& fieldLen mask = fieldLen v ∧ fieldRsv1 w &&& fieldRsv1 mask = fieldRsv1 v ∧
      fieldData w &&& fieldData mask = fieldData v := by
  rw [eq_iff_fields]
  simp only [fieldOp, fieldRsv0, fieldFreq, fieldDuty, fieldLen, fieldRsv1, fieldData, BitVec.extractLsb'_and]

/-! ### The decoder by fields (R53) -/

/-- The fields of a CFG word: LEN, DATA and the reserved fields are zero (R52). -/
structure CfgFields (w : CmdWord) : Prop where
  op : fieldOp w = opCfg
  rsv0 : fieldRsv0 w = 0#4
  len : fieldLen w = 0#6
  rsv1 : fieldRsv1 w = 0#2
  data : fieldData w = 0#32

/-- The fields of an ENC word: the reserved fields are zero (R52), and LEN is a legal length (R50). -/
structure EncFields (w : CmdWord) : Prop where
  op : fieldOp w = opEnc
  rsv0 : fieldRsv0 w = 0#4
  rsv1 : fieldRsv1 w = 0#2
  len : (fieldLen w).toNat ≤ Config.lenMax

theorem decode_of_cfgFields {w : CmdWord} (h : CfgFields w) :
    decode w = .legal (.cfg (fieldFreq w) (fieldDuty w)) := by
  simp [decode, h.op, h.rsv0, h.rsv1, h.len, h.data]

theorem decode_of_encFields {w : CmdWord} (h : EncFields w) :
    decode w = .legal (.enc (fieldFreq w) (fieldDuty w) (fieldLen w) (fieldData w)) := by
  have hop : opEnc ≠ opCfg := by decide
  simp [decode, h.op, hop, h.rsv0, h.rsv1, h.len]

/-- Every word that is neither a CFG word nor an ENC word is rejected. -/
theorem decode_of_not_fields {w : CmdWord} (hcfg : ¬ CfgFields w) (henc : ¬ EncFields w) :
    ∃ why, decode w = .illegal why := by
  unfold decode
  split
  · exact ⟨.reservedBits, rfl⟩
  · next hrsv =>
    obtain ⟨hrsv0, hrsv1⟩ : fieldRsv0 w = 0#4 ∧ fieldRsv1 w = 0#2 := by simpa using hrsv
    split
    · next hop =>
      rw [if_neg fun ⟨hlen, hdata⟩ => hcfg ⟨hop, hrsv0, hlen, hrsv1, hdata⟩]
      exact ⟨.cfgOperand, rfl⟩
    · split
      · next hop =>
        rw [if_neg fun hlen => henc ⟨hop, hrsv0, hrsv1, hlen⟩]
        exact ⟨.encLength, rfl⟩
      · exact ⟨.reservedOp, rfl⟩

/-- A word is ILLEGAL exactly when its fields are neither those of CFG nor those of ENC. -/
theorem decode_illegal_iff (w : CmdWord) :
    (∃ why, decode w = .illegal why) ↔ ¬ CfgFields w ∧ ¬ EncFields w := by
  refine ⟨fun ⟨why, hw⟩ => ⟨fun h => ?_, fun h => ?_⟩, fun ⟨hcfg, henc⟩ => decode_of_not_fields hcfg henc⟩
  · rw [decode_of_cfgFields h] at hw; cases hw
  · rw [decode_of_encFields h] at hw; cases hw

/-! ### The masks of R53 -/

/-- The CFG row of the table: its mask covers every field but FREQ and DUTY. -/
theorem and_cfgMask_eq_iff (w : CmdWord) :
    w &&& 0xFFFFFFFFFF0000FF#64 = 0x0000000000000001#64 ↔ CfgFields w := by
  rw [and_eq_iff_fields]
  change (fieldOp w &&& .allOnes 4 = opCfg ∧ fieldRsv0 w &&& .allOnes 4 = 0#4 ∧ fieldFreq w &&& 0#8 = 0#8 ∧
    fieldDuty w &&& 0#8 = 0#8 ∧ fieldLen w &&& .allOnes 6 = 0#6 ∧ fieldRsv1 w &&& .allOnes 2 = 0#2 ∧
    fieldData w &&& .allOnes 32 = 0#32) ↔ _
  simp only [BitVec.and_allOnes, BitVec.and_zero, true_and]
  exact ⟨fun ⟨hop, hrsv0, hlen, hrsv1, hdata⟩ => ⟨hop, hrsv0, hlen, hrsv1, hdata⟩,
    fun ⟨hop, hrsv0, hlen, hrsv1, hdata⟩ => ⟨hop, hrsv0, hlen, hrsv1, hdata⟩⟩

/-- The ENC row of the table: its mask covers OP and the reserved fields, and the extra condition bounds LEN. -/
theorem and_encMask_eq_iff (w : CmdWord) :
    (w &&& 0x00000000C00000FF#64 = 0x0000000000000002#64 ∧ (fieldLen w).toNat ≤ Config.lenMax) ↔ EncFields w := by
  rw [and_eq_iff_fields]
  change (fieldOp w &&& .allOnes 4 = opEnc ∧ fieldRsv0 w &&& .allOnes 4 = 0#4 ∧ fieldFreq w &&& 0#8 = 0#8 ∧
    fieldDuty w &&& 0#8 = 0#8 ∧ fieldLen w &&& 0#6 = 0#6 ∧ fieldRsv1 w &&& .allOnes 2 = 0#2 ∧
    fieldData w &&& 0#32 = 0#32) ∧ _ ↔ _
  simp only [BitVec.and_allOnes, BitVec.and_zero, true_and, and_true]
  exact ⟨fun ⟨⟨hop, hrsv0, hrsv1⟩, hlen⟩ => ⟨hop, hrsv0, hrsv1, hlen⟩,
    fun ⟨hop, hrsv0, hrsv1, hlen⟩ => ⟨⟨hop, hrsv0, hrsv1⟩, hlen⟩⟩

/-! ### The cases of R54 -/

theorem cfgFields_iff_toNat (w : CmdWord) :
    CfgFields w ↔ (fieldOp w).toNat = 1 ∧ (fieldRsv0 w).toNat = 0 ∧ (fieldLen w).toNat = 0 ∧
      (fieldRsv1 w).toNat = 0 ∧ (fieldData w).toNat = 0 := by
  refine ⟨fun ⟨hop, hrsv0, hlen, hrsv1, hdata⟩ => by simp [hop, hrsv0, hlen, hrsv1, hdata, opCfg],
    fun ⟨hop, hrsv0, hlen, hrsv1, hdata⟩ => ?_⟩
  exact ⟨BitVec.eq_of_toNat_eq hop, BitVec.eq_of_toNat_eq hrsv0, BitVec.eq_of_toNat_eq hlen,
    BitVec.eq_of_toNat_eq hrsv1, BitVec.eq_of_toNat_eq hdata⟩

theorem encFields_iff_toNat (w : CmdWord) :
    EncFields w ↔ (fieldOp w).toNat = 2 ∧ (fieldRsv0 w).toNat = 0 ∧ (fieldRsv1 w).toNat = 0 ∧
      (fieldLen w).toNat ≤ 32 := by
  refine ⟨fun ⟨hop, hrsv0, hrsv1, hlen⟩ => ⟨by simp [hop, opEnc], by simp [hrsv0], by simp [hrsv1], hlen⟩,
    fun ⟨hop, hrsv0, hrsv1, hlen⟩ => ?_⟩
  exact ⟨BitVec.eq_of_toNat_eq hop, BitVec.eq_of_toNat_eq hrsv0, BitVec.eq_of_toNat_eq hrsv1, hlen⟩

/-- The words that are neither CFG nor ENC are those of the four cases of R54. -/
theorem not_fields_iff_cases (w : CmdWord) :
    (¬ CfgFields w ∧ ¬ EncFields w) ↔
      ((fieldOp w).toNat = 0 ∨ 3 ≤ (fieldOp w).toNat) ∨
      ((fieldRsv0 w).toNat ≠ 0 ∨ (fieldRsv1 w).toNat ≠ 0) ∨
      ((fieldOp w).toNat = 1 ∧ ((fieldLen w).toNat ≠ 0 ∨ (fieldData w).toNat ≠ 0)) ∨
      ((fieldOp w).toNat = 2 ∧ 33 ≤ (fieldLen w).toNat) := by
  rw [cfgFields_iff_toNat, encFields_iff_toNat]
  omega

/-- Accepting an ILLEGAL word while SEQ is Idle raises ILLEGAL and nothing else (R103). -/
theorem Machine.acceptWord_of_illegal {w : CmdWord} {why : Illegal} {s : Machine.State}
    (hw : decode w = .illegal why) (hidle : s.seq = .idle) :
    Machine.acceptWord w s = .next (s.raiseFault .illegal) := by
  rw [Machine.acceptWord, hw]
  exact Machine.whenIdle_of_idle hidle

/-! ### The word of a `send` line (R58) -/

/-- `send` is `enc` with the reference carrier, refusals included: the reference selectors are in range. -/
theorem assemble_send (data len : Nat) :
    assemble (.send data len) = assemble (.enc Config.refFreq.toNat Config.refDuty.toNat len data) := by
  have hfreq : Config.refFreq.toNat < 256 := Config.refFreq.isLt
  have hduty : Config.refDuty.toNat < 256 := Config.refDuty.isLt
  simp only [assemble, hfreq, hduty, true_and, BitVec.ofNat_toNat, BitVec.setWidth_eq]

theorem assemble_send_of_le {data len : Nat} (hlen : len ≤ 32) (hdata : data < 2 ^ 32) :
    assemble (.send data len) =
      some (encode (.enc Config.refFreq Config.refDuty (BitVec.ofNat 6 len) (BitVec.ofNat 32 data))) :=
  if_pos ⟨hlen, hdata⟩

/-- The word of an ENC by its bytes: RSV0 and OP together are the low byte, 0x02. -/
theorem encode_enc (freq duty : Byte) (len : Count) (data : Word) :
    encode (.enc freq duty len data) = data ++ 0#2 ++ len ++ duty ++ freq ++ 0x02#8 := by
  have hlow : (0x02#8 : Byte) = 0#4 ++ opEnc := by decide
  rw [hlow, BitVec.append_assoc']
  rfl

end Sys2Proof

namespace Sys2Proof.Proofs

open Sys2Proof.Machine

/-- Settles O3: each row of the table says what the fields of the word are, and the fields say what it decodes to. -/
theorem decodeByMaskAndMatch : Obligations.DecodeByMaskAndMatch := by
  intro w
  refine ⟨fun h => decode_of_cfgFields ((and_cfgMask_eq_iff w).mp h),
    fun h => decode_of_encFields ((and_encMask_eq_iff w).mp h), fun hcfg henc => ?_⟩
  exact decode_of_not_fields (mt (and_cfgMask_eq_iff w).mpr hcfg) (mt (and_encMask_eq_iff w).mpr henc)

/-- Settles O4: ILLEGAL is what the fields of neither command leave, and accepting such a word raises the fault only. -/
theorem illegalEncodings : Obligations.IllegalEncodings := by
  intro w
  exact ⟨(decode_illegal_iff w).trans (not_fields_iff_cases w), fun s ⟨_, hw⟩ hidle => acceptWord_of_illegal hw hidle⟩

/-- Settles O6: the reference selectors are 36 and 25, that is the bytes 0x24 and 0x19. -/
theorem sendIsReferenceEnc : Obligations.SendIsReferenceEnc := by
  intro data len
  refine ⟨assemble_send data len, fun hlen hdata => ?_⟩
  rw [assemble_send_of_le hlen hdata, encode_enc]

end Sys2Proof.Proofs
end

section
/-! PROOFS of 40_carrier_configurator.md: the two tables by the numbers of the selectors, CLKDIV as its four bytes, and
what CFG and ENC do with a selector pair while SEQ is Idle. -/

namespace Sys2Proof.Machine

/-! ### The tables (R60 to R64) -/

/-- The frequency table read by the number of the selector (R60); the pre-divider is the same in every row. -/
theorem freqRow_eq_toNat (f : Byte) :
    freqRow f = (10, if f.toNat = 36 then 222 else if f.toNat = 38 then 210 else if f.toNat = 40 then 200
      else if f.toNat = 56 then 143 else 222) := by
  simp only [freqRow, BitVec.toNat_eq, BitVec.reduceToNat]
  repeat' split
  all_goals rfl

theorem freqRow_of_unrecognized {f : Byte} (h36 : f.toNat ≠ 36) (h38 : f.toNat ≠ 38) (h40 : f.toNat ≠ 40)
    (h56 : f.toNat ≠ 56) : freqRow f = (10, 222) := by
  rw [freqRow_eq_toNat, if_neg h36, if_neg h38, if_neg h40, if_neg h56]

theorem freqRow_bounds (f : Byte) : (freqRow f).1 = 10 ∧ 143 ≤ (freqRow f).2 ∧ (freqRow f).2 ≤ 222 := by
  rcases freqRow_cases f with h | h | h | h <;> simp [h]

/-- The duty formulas read by the number of the selector (R62), the shifts as quotients. -/
theorem highOf_eq_toNat (c : Nat) (d : Byte) :
    highOf c d = if d.toNat = 25 then c / 4 else if d.toNat = 33 then c / 3 else if d.toNat = 50 then c / 2
      else if d.toNat = 100 then c else c / 4 := by
  simp only [highOf, BitVec.toNat_eq, BitVec.reduceToNat, Nat.shiftRight_eq_div_pow, Nat.reducePow]

theorem highOf_of_unrecognized (c : Nat) {d : Byte} (h25 : d.toNat ≠ 25) (h33 : d.toNat ≠ 33) (h50 : d.toNat ≠ 50)
    (h100 : d.toNat ≠ 100) : highOf c d = c >>> 2 := by
  rw [highOf_eq_toNat, if_neg h25, if_neg h33, if_neg h50, if_neg h100, Nat.shiftRight_eq_div_pow]

/-- No duty formula exceeds the full period. -/
theorem highOf_le (c : Nat) (d : Byte) : highOf c d ≤ c := by
  rcases highOf_cases c d with ⟨-, h | h | h⟩ | ⟨-, h⟩ <;> omega

/-- The timing of a selector pair reads FREQ through its row and DUTY through its formula only (R63). -/
theorem timing_congr {f f' d d' : Byte} (hrow : freqRow f = freqRow f') (hhigh : ∀ c, highOf c d = highOf c d') :
    timing f d = timing f' d' := by
  simp only [timing, hrow, hhigh]

/-! ### CLKDIV (R65) -/

/-- Masking to a byte is what an 8-bit value does by itself. -/
theorem maskN_eight (v : Nat) : maskN 8 v = (BitVec.ofNat 8 v).toNat := by
  rw [maskN, Nat.and_two_pow_sub_one_eq_mod, BitVec.toNat_ofNat]

/-- The packed word is its four bytes in a row: each masked value is a byte, and the shifts are those of the joins. -/
theorem packClkdiv_eq_append (pre cyc high : Nat) :
    packClkdiv pre cyc high =
      BitVec.ofNat 8 (pre - 1) ++ BitVec.ofNat 8 (cyc - 1) ++ BitVec.ofNat 8 high ++ 0#8 := by
  rw [← BitVec.setWidth_eq (_ ++ _ ++ _ ++ _), ← BitVec.ofNat_toNat]
  simp only [packClkdiv, maskN_eight, BitVec.toNat_append, Nat.shiftLeft_or_distrib, ← Nat.shiftLeft_add]
  rfl

@[simp] theorem clkPre_packClkdiv (pre cyc high : Nat) :
    clkPre (packClkdiv pre cyc high) = BitVec.ofNat 8 (pre - 1) := by
  rw [packClkdiv_eq_append, clkPre, BitVec.extractLsb'_append_eq_of_le (by decide),
    BitVec.extractLsb'_append_eq_of_le (by decide), BitVec.extractLsb'_append_eq_left]

@[simp] theorem clkN_packClkdiv (pre cyc high : Nat) :
    clkN (packClkdiv pre cyc high) = BitVec.ofNat 8 (cyc - 1) := by
  rw [packClkdiv_eq_append, clkN, BitVec.extractLsb'_append_eq_of_le (by decide),
    BitVec.extractLsb'_append_eq_of_le (by decide), BitVec.extractLsb'_append_eq_right]

@[simp] theorem clkH_packClkdiv (pre cyc high : Nat) :
    clkH (packClkdiv pre cyc high) = BitVec.ofNat 8 high := by
  rw [packClkdiv_eq_append, clkH, BitVec.extractLsb'_append_eq_of_le (by decide),
    BitVec.extractLsb'_append_eq_right]

@[simp] theorem clkL_packClkdiv (pre cyc high : Nat) : clkL (packClkdiv pre cyc high) = 0#8 := by
  rw [packClkdiv_eq_append, clkL, BitVec.extractLsb'_append_eq_right]

/-! ### The configuration sequence (R67) -/

/-- The two events stand in the trace in the order of the two writes. -/
theorem State.configure_eq (f d : Byte) (s : State) :
    s.configure f d =
      { s with
        tmode := Config.tmodeValue
        clkdiv := clkdivOf f d
        trace := s.trace ++ [.wrmode Config.tmodeValue, .wrclk (clkdivOf f d)] } := by
  rw [← s.configure_trace f d]
  rfl

/-- A configuration reads its selectors through their timing only. -/
theorem clkdivOf_congr {f f' d d' : Byte} (h : timing f d = timing f' d') : clkdivOf f d = clkdivOf f' d' := by
  rw [clkdivOf, clkdivOf, h]

theorem State.configure_congr {f f' d d' : Byte} (h : timing f d = timing f' d') (s : State) :
    s.configure f d = s.configure f' d' := by
  rw [State.configure, State.configure, clkdivOf_congr h]

theorem State.acceptEnc_congr {f f' d d' : Byte} (h : timing f d = timing f' d') (len : Count) (data : Word)
    (s : State) : s.acceptEnc f d len data = s.acceptEnc f' d' len data := by
  rw [State.acceptEnc, State.acceptEnc, State.configure_congr h]

/-! ### CFG and ENC while SEQ is Idle (R68, R75, R79) -/

theorem exec_cfg_of_idle {s : State} (hidle : s.seq = .idle) (f d : Byte) :
    exec (.cfg f d) s = .next (s.configure f d) :=
  whenIdle_of_idle hidle

theorem exec_enc_of_idle {s : State} (hidle : s.seq = .idle) (f d : Byte) (len : Count) (data : Word) :
    exec (.enc f d len data) s = .next (s.acceptEnc f d len data) :=
  whenIdle_of_idle hidle

/-- With a LEN from 1 to 32 there is one outcome: the configuration, the latches and the first issue. -/
theorem State.acceptEnc_of_len {len : Count} (hpos : 1 ≤ len.toNat) (hle : len.toNat ≤ 32) (f d : Byte) (data : Word)
    (s : State) :
    s.acceptEnc f d len data = ((s.configure f d).latch data len.toNat).setSeq (.issue (len.toNat - 1) 0) := by
  rcases acceptEnc_cases f d len data s with ⟨hlt, -⟩ | ⟨hzero, -⟩ | ⟨-, -, h⟩
  · omega
  · omega
  · exact h

/-- Every legal LEN configures, LEN = 0 included (R79). -/
theorem State.acceptEnc_tmode_of_len {len : Count} (hle : len.toNat ≤ 32) (f d : Byte) (data : Word) (s : State) :
    (s.acceptEnc f d len data).tmode = Config.tmodeValue := by
  rcases acceptEnc_cases f d len data s with ⟨hlt, -⟩ | ⟨-, h⟩ | ⟨-, -, h⟩
  · omega
  · rw [h, raiseFault_tmode, configure_tmode]
  · rw [h, setSeq_tmode, latch_tmode, configure_tmode]

/-- Every well-formed command writes the transport mode, whatever its operands (R66). -/
theorem exec_of_wellFormed_tmode {i : Instr} {s : State} (hwf : i.wellFormed = true) (hidle : s.seq = .idle) :
    ∃ t, exec i s = .next t ∧ t.tmode = Config.tmodeValue := by
  cases i with
  | cfg f d => exact ⟨_, exec_cfg_of_idle hidle f d, s.configure_tmode f d⟩
  | enc f d len data =>
    have hle : len.toNat ≤ 32 := of_decide_eq_true hwf
    exact ⟨_, exec_enc_of_idle hidle f d len data, State.acceptEnc_tmode_of_len hle f d data s⟩

/-- CFG reads its selectors through their timing only. -/
theorem exec_cfg_congr {f f' d d' : Byte} (h : timing f d = timing f' d') (s : State) :
    exec (.cfg f d) s = exec (.cfg f' d') s :=
  congrArg (whenIdle · s) (funext (State.configure_congr h))

/-- ENC reads its selectors through their timing only. -/
theorem exec_enc_congr {f f' d d' : Byte} (h : timing f d = timing f' d') (len : Count) (data : Word) (s : State) :
    exec (.enc f d len data) s = exec (.enc f' d' len data) s :=
  congrArg (whenIdle · s) (funext (State.acceptEnc_congr h len data))

/-- CFG sets no status bit, whatever its selectors. -/
theorem exec_cfg_status {s : State} (hidle : s.seq = .idle) (f d : Byte) :
    ∃ t, exec (.cfg f d) s = .next t ∧ t.status = s.status :=
  ⟨_, exec_cfg_of_idle hidle f d, s.configure_status f d⟩

/-- ENC with a LEN from 1 to 32 sets no status bit, whatever its selectors. -/
theorem exec_enc_status_of_len {s : State} {len : Count} (hidle : s.seq = .idle) (f d : Byte) (data : Word)
    (hpos : 1 ≤ len.toNat) (hle : len.toNat ≤ 32) :
    ∃ t, exec (.enc f d len data) s = .next t ∧ t.status = s.status := by
  refine ⟨_, exec_enc_of_idle hidle f d len data, ?_⟩
  rw [State.acceptEnc_of_len hpos hle, State.setSeq_status, State.latch_status, State.configure_status]

end Sys2Proof.Machine

namespace Sys2Proof.Proofs

open Sys2Proof.Machine

/-- Settles O12: the four fields are the four bytes of the packed word, and the rows of the table and the bound of the
duty formulas keep each value within its byte. -/
theorem clkdivFieldsExact : Obligations.ClkdivFieldsExact := by
  refine ⟨fun pre cyc high _ _ => ?_, fun f d => ?_⟩
  · simp [clkPre_packClkdiv, clkN_packClkdiv, clkH_packClkdiv, clkL_packClkdiv]
  · obtain ⟨hpre, hmin, hmax⟩ := freqRow_bounds f
    have hhigh := highOf_le (freqRow f).2 d
    simp only [timing]
    omega

/-- Settles O8: a selector is a row's exactly when its number is. -/
theorem frequencyTable : Obligations.FrequencyTable := freqRow_eq_toNat

/-- Settles O9: the fallback row is that of 36, so the timing is the same, and a command reads no more than that. -/
theorem unrecognizedFrequencyFallsBack : Obligations.UnrecognizedFrequencyFallsBack := by
  intro f h36 h38 h40 h56
  have hrow : freqRow f = (10, 222) := freqRow_of_unrecognized h36 h38 h40 h56
  refine ⟨hrow, hrow, fun d len data s hidle => ?_⟩
  have htiming : timing f d = timing 36#8 d := timing_congr hrow fun _ => rfl
  exact ⟨exec_cfg_congr htiming s, exec_enc_congr htiming len data s, exec_cfg_status hidle f d,
    exec_enc_status_of_len hidle f d data⟩

/-- Settles O10: a selector is a formula's exactly when its number is, and a right shift is a quotient. -/
theorem dutyFormulas : Obligations.DutyFormulas := highOf_eq_toNat

/-- Settles O11: the fallback formula is that of 25, so the timing is the same, and a command reads no more than that. -/
theorem unrecognizedDutyFallsBack : Obligations.UnrecognizedDutyFallsBack := by
  intro d h25 h33 h50 h100
  have hhigh : ∀ c, highOf c d = c >>> 2 := fun c => highOf_of_unrecognized c h25 h33 h50 h100
  refine ⟨hhigh, fun f len data s hidle => ?_⟩
  have htiming : timing f d = timing f 25#8 := timing_congr rfl hhigh
  exact ⟨exec_cfg_congr htiming s, exec_enc_congr htiming len data s, exec_cfg_status hidle f d,
    exec_enc_status_of_len hidle f d data⟩

/-- Settles O14: the sequence is the two output operations, each of which is its write and its event. -/
theorem configureWritesModeThenDivider : Obligations.ConfigureWritesModeThenDivider :=
  fun f d s => s.configure_eq f d

/-- Settles O16: the bits are those of 0x41, which every well-formed command writes. -/
theorem configuredTransportMode : Obligations.ConfiguredTransportMode := by
  intro i s hwf hidle
  obtain ⟨t, hexec, hmode⟩ := exec_of_wellFormed_tmode hwf hidle
  refine ⟨t, hexec, ?_⟩
  rw [hmode]
  decide

end Sys2Proof.Proofs
end

section
/-! PROOFS of 41_pulse_encoder.md: the transaction of a half of a bit spelled out, and the issue step. -/

namespace Sys2Proof.Machine

/-- The bit of DATA as a number (R72). -/
theorem bitAt_val (data : Word) (pos : Nat) : (bitAt data pos).val = if data.getLsbD pos then 1 else 0 := by
  unfold bitAt
  split <;> rfl

/-- The pattern read by the numbers of the bit and the half: high exactly when they agree (R73). -/
theorem pat_eq_val (b half : Fin 2) : pat b half = if b.val = half.val then 0xFFFFFFFF#32 else 0x00000000#32 := by
  simp only [pat, Fin.ext_iff]

/-- The transaction for a half of a bit, from the bit of DATA itself (R73). -/
theorem burstEvent_eq_xfer (data : Word) (pos : Nat) (half : Fin 2) :
    burstEvent data pos half = .xfer 32#6
      (if (if data.getLsbD pos then 1 else 0) = half.val then 0xFFFFFFFF#32 else 0x00000000#32) := by
  rw [burstEvent, pat_eq_val, bitAt_val]

/-- The issue step whole: the trace and SEQ are all it writes (R76). -/
theorem State.stepIssue_eq (s : State) (pos : Nat) (half : Fin 2) :
    s.stepIssue pos half = { s with trace := s.trace ++ [burstEvent s.dataL pos half], seq := .wait pos half } := rfl

/-- BLOCK's move in `Issue` is the issue step (R76). -/
theorem blockTurn_of_issue {s : State} {pos : Nat} {half : Fin 2} (h : s.seq = .issue pos half) :
    blockTurn s = .next (s.stepIssue pos half) := by
  simp only [blockTurn, h]

end Sys2Proof.Machine

namespace Sys2Proof.Proofs

open Sys2Proof.Machine

/-- Settles O23: in `Issue` BLOCK's move is the issue step, which writes the trace and SEQ only, and the event it appends
is the transaction of the bit of DATA_L. -/
theorem issueStepEmitsTransaction : Obligations.IssueStepEmitsTransaction := by
  intro s pos half hissue
  rw [blockTurn_of_issue hissue, State.stepIssue_eq, burstEvent_eq_xfer]

end Sys2Proof.Proofs
end

section
/-! PROOFS of 60_exceptions.md: what raising a fault writes, the two faulting words, and the commands that raise none. -/

namespace Sys2Proof.Machine

/-- Raising ILLEGAL writes its STATUS bit only (R101). -/
theorem State.raiseFault_illegal_eq (s : State) :
    s.raiseFault .illegal = { s with status := { s.status with illegal := true } } := rfl

/-- Raising UNDEF_LEN writes its STATUS bit only (R101). -/
theorem State.raiseFault_undefLen_eq (s : State) :
    s.raiseFault .undefLen = { s with status := { s.status with undefLen := true } } := rfl

/-- With LEN = 0 there is one outcome: the configuration, and then the fault (R79). -/
theorem State.acceptEnc_of_len_zero {len : Count} (hzero : len.toNat = 0) (f d : Byte) (data : Word) (s : State) :
    s.acceptEnc f d len data = (s.configure f d).raiseFault .undefLen := by
  rcases acceptEnc_cases f d len data s with ⟨hlt, -⟩ | ⟨-, h⟩ | ⟨hpos, -, -⟩
  · omega
  · exact h
  · omega

end Sys2Proof.Machine

namespace Sys2Proof.Proofs

open Sys2Proof.Machine

/-- Settles O20: an ILLEGAL word raises its fault in the state as it was, and ENC with LEN = 0 raises its own in the
configured state. -/
theorem faultingWordEffects : Obligations.FaultingWordEffects := by
  refine ⟨fun w why s hw hidle => ?_, fun f d data s hidle => ?_⟩
  · rw [acceptWord_of_illegal hw hidle, State.raiseFault_illegal_eq]
  · rw [exec_enc_of_idle hidle, State.acceptEnc_of_len_zero rfl, State.raiseFault_undefLen_eq, State.configure_eq]
    rfl

/-- Settles O21: neither the configuration nor the start of a burst sequence writes STATUS. -/
theorem legalCommandsNeverFault : Obligations.LegalCommandsNeverFault :=
  fun f d _ data _ hidle => ⟨exec_cfg_status hidle f d, exec_enc_status_of_len hidle f d data⟩

end Sys2Proof.Proofs
end

section
/-! PROOFS of 70_reset_and_hazards.md: the reset turn, and what the agents other than HOST do while SEQ is Idle. -/

namespace Sys2Proof.Machine

@[simp] theorem State.resetBlock_busy (s : State) : s.resetBlock.busy = false := rfl

@[simp] theorem State.resetBlock_noFault (s : State) : s.resetBlock.noFault := ⟨rfl, rfl⟩

/-- A reset turn resets the block, whatever is running (R110). -/
theorem step_of_reset {s : State} (h : s.nextTurn = .reset) : step s = .next s.popTurn.resetBlock := by
  rw [step, stepTurn, h, takeTurn]

/-- An ACK while SEQ is Idle has no effect (R110). -/
theorem transportTurn_of_idle {s : State} (hidle : s.seq = .idle) : transportTurn s = .next s := by
  simp only [transportTurn, hidle]

/-- While SEQ is Idle only HOST's command and reset touch the trace: the issue step and the completion step, the other
two that write the block's state, each need a command that is running. -/
theorem step_trace_of_idle {s t : State} (hidle : s.seq = .idle) (hhost : s.nextTurn ≠ .host)
    (hreset : s.nextTurn ≠ .reset) (hstep : step s = .next t) : t.trace = s.trace := by
  rcases step_cases hstep with ⟨hturn, -⟩ | ⟨-, rfl⟩ | ⟨hturn, -⟩ | ⟨pos, half, -, hissue, -⟩ |
    ⟨pos, half, -, hwait, -⟩ | ⟨-, -, rfl⟩
  · exact absurd hturn hreset
  · rw [State.readStat_trace, State.popTurn_trace]
  · exact absurd hturn hhost
  · rw [hidle] at hissue; cases hissue
  · rw [hidle] at hwait; cases hwait
  · exact s.popTurn_trace

end Sys2Proof.Machine

namespace Sys2Proof.Proofs

open Sys2Proof.Machine

/-- Settles O42: the reset turn is `resetBlock`, which reads nothing of the running command, and with SEQ Idle neither
the issue step nor the completion step can be taken. -/
theorem resetEndsCommand : Obligations.ResetEndsCommand := by
  refine ⟨fun s hreset => ⟨s.popTurn.resetBlock, step_of_reset hreset, ?_⟩,
    fun _ hidle => transportTurn_of_idle hidle,
    fun _ _ hidle hhost hreset hstep => step_trace_of_idle hidle hhost hreset hstep⟩
  simp

end Sys2Proof.Proofs
end

section
/-! PROOFS of 30_encoding.md, continued: every field of a word made of its fields, and with them that the encoder and
the decoder undo each other and that the assembler's words read back as its lines. -/

namespace Sys2Proof

/-! ### The fields of a word made of them (R46) -/

theorem fieldOp_wordOf (op rsv0 : BitVec 4) (freq duty : Byte) (len : Count) (rsv1 : BitVec 2) (data : Word) :
    fieldOp (wordOf op rsv0 freq duty len rsv1 data) = op :=
  BitVec.extractLsb'_append_eq_right

theorem fieldFreq_wordOf (op rsv0 : BitVec 4) (freq duty : Byte) (len : Count) (rsv1 : BitVec 2) (data : Word) :
    fieldFreq (wordOf op rsv0 freq duty len rsv1 data) = freq := by
  unfold fieldFreq wordOf
  iterate 2 rw [BitVec.extractLsb'_append_eq_of_le (by decide)]
  exact BitVec.extractLsb'_append_eq_right

theorem fieldDuty_wordOf (op rsv0 : BitVec 4) (freq duty : Byte) (len : Count) (rsv1 : BitVec 2) (data : Word) :
    fieldDuty (wordOf op rsv0 freq duty len rsv1 data) = duty := by
  unfold fieldDuty wordOf
  iterate 3 rw [BitVec.extractLsb'_append_eq_of_le (by decide)]
  exact BitVec.extractLsb'_append_eq_right

theorem fieldLen_wordOf (op rsv0 : BitVec 4) (freq duty : Byte) (len : Count) (rsv1 : BitVec 2) (data : Word) :
    fieldLen (wordOf op rsv0 freq duty len rsv1 data) = len := by
  unfold fieldLen wordOf
  iterate 4 rw [BitVec.extractLsb'_append_eq_of_le (by decide)]
  exact BitVec.extractLsb'_append_eq_right

theorem fieldData_wordOf (op rsv0 : BitVec 4) (freq duty : Byte) (len : Count) (rsv1 : BitVec 2) (data : Word) :
    fieldData (wordOf op rsv0 freq duty len rsv1 data) = data := by
  unfold fieldData wordOf
  iterate 6 rw [BitVec.extractLsb'_append_eq_of_le (by decide)]
  exact BitVec.extractLsb'_eq_self

/-! ### Decoding an encoding, and encoding what was decoded -/

theorem cfgFields_encode (freq duty : Byte) : CfgFields (encode (.cfg freq duty)) where
  op := fieldOp_wordOf ..
  rsv0 := Laws.fieldRsv0_wordOf ..
  len := fieldLen_wordOf ..
  rsv1 := Laws.fieldRsv1_wordOf ..
  data := fieldData_wordOf ..

theorem encFields_encode (freq duty : Byte) {len : Count} (hlen : len.toNat ≤ Config.lenMax) (data : Word) :
    EncFields (encode (.enc freq duty len data)) where
  op := fieldOp_wordOf ..
  rsv0 := Laws.fieldRsv0_wordOf ..
  rsv1 := Laws.fieldRsv1_wordOf ..
  len := by rwa [encode, fieldLen_wordOf]

theorem decode_encode_cfg (freq duty : Byte) : decode (encode (.cfg freq duty)) = .legal (.cfg freq duty) := by
  rw [decode_of_cfgFields (cfgFields_encode freq duty), encode, fieldFreq_wordOf, fieldDuty_wordOf]

theorem decode_encode_enc (freq duty : Byte) {len : Count} (hlen : len.toNat ≤ Config.lenMax) (data : Word) :
    decode (encode (.enc freq duty len data)) = .legal (.enc freq duty len data) := by
  rw [decode_of_encFields (encFields_encode freq duty hlen data), encode, fieldFreq_wordOf, fieldDuty_wordOf,
    fieldLen_wordOf, fieldData_wordOf]

/-- A LEN above 32 has no command: the word its fields spell is ILLEGAL, whatever the other operands (R54, R103). -/
theorem decode_encode_enc_of_lt (freq duty : Byte) {len : Count} (hlen : 32 < len.toNat) (data : Word) :
    ∃ why, decode (encode (.enc freq duty len data)) = .illegal why := by
  refine decode_of_not_fields (fun h => ?_) (fun h => ?_)
  · have hop := h.op
    rw [encode, fieldOp_wordOf] at hop
    exact absurd hop (by decide)
  · have hle : len.toNat ≤ 32 := by simpa only [encode, fieldLen_wordOf] using h.len
    omega

theorem encode_of_cfgFields {w : CmdWord} (h : CfgFields w) : encode (.cfg (fieldFreq w) (fieldDuty w)) = w := by
  rw [encode, ← h.op, ← h.rsv0, ← h.len, ← h.rsv1, ← h.data, wordOf_fields]

theorem encode_of_encFields {w : CmdWord} (h : EncFields w) :
    encode (.enc (fieldFreq w) (fieldDuty w) (fieldLen w) (fieldData w)) = w := by
  rw [encode, ← h.op, ← h.rsv0, ← h.rsv1, wordOf_fields]

/-- A word that decodes to a command has that command's fields. -/
theorem decode_legal_cases {w : CmdWord} {i : Instr} (h : decode w = .legal i) :
    (CfgFields w ∧ i = .cfg (fieldFreq w) (fieldDuty w)) ∨
    (EncFields w ∧ i = .enc (fieldFreq w) (fieldDuty w) (fieldLen w) (fieldData w)) := by
  by_cases hcfg : CfgFields w
  · rw [decode_of_cfgFields hcfg, Decoded.legal.injEq] at h
    exact .inl ⟨hcfg, h.symm⟩
  by_cases henc : EncFields w
  · rw [decode_of_encFields henc, Decoded.legal.injEq] at h
    exact .inr ⟨henc, h.symm⟩
  obtain ⟨why, hillegal⟩ := decode_of_not_fields hcfg henc
  rw [hillegal] at h
  cases h

/-- No word decodes to an ENC whose LEN is above 32 (R50). -/
theorem len_le_of_decode {w : CmdWord} {freq duty : Byte} {len : Count} {data : Word}
    (h : decode w = .legal (.enc freq duty len data)) : len.toNat ≤ 32 := by
  rcases decode_legal_cases h with ⟨-, h⟩ | ⟨hw, h⟩
  · cases h
  · cases h
    exact hw.len

/-! ### The assembler's ranges (R57) -/

theorem assemble_cfg_of_le {freq duty : Nat} (hfreq : freq ≤ 255) (hduty : duty ≤ 255) :
    assemble (.cfg freq duty) = some (encode (.cfg (BitVec.ofNat 8 freq) (BitVec.ofNat 8 duty))) :=
  if_pos (by omega)

theorem assemble_cfg_eq_none_iff (freq duty : Nat) :
    assemble (.cfg freq duty) = none ↔ ¬ (freq ≤ 255 ∧ duty ≤ 255) := by
  simp only [assemble, ite_eq_right_iff, reduceCtorEq, imp_false]
  omega

theorem assemble_enc_of_le {freq duty len data : Nat} (hfreq : freq ≤ 255) (hduty : duty ≤ 255) (hlen : len ≤ 32)
    (hdata : data ≤ 2 ^ 32 - 1) :
    assemble (.enc freq duty len data) =
      some (encode (.enc (BitVec.ofNat 8 freq) (BitVec.ofNat 8 duty) (BitVec.ofNat 6 len) (BitVec.ofNat 32 data))) :=
  if_pos (by simp only [Config.lenMax, Config.cmdWidth]; omega)

theorem assemble_enc_eq_none_iff (freq duty len data : Nat) :
    assemble (.enc freq duty len data) = none ↔
      ¬ (freq ≤ 255 ∧ duty ≤ 255 ∧ len ≤ 32 ∧ data ≤ 2 ^ 32 - 1) := by
  simp only [assemble, ite_eq_right_iff, reduceCtorEq, Config.lenMax, Config.cmdWidth, imp_false]
  omega

end Sys2Proof

namespace Sys2Proof.Proofs

open Sys2Proof.Machine

/-- Settles O1: the word of a well-formed command has the command's fields, and the fields decide what it decodes to. -/
theorem decodeOfEncode : Obligations.DecodeOfEncode := by
  intro i hwf
  cases i with
  | cfg freq duty => exact decode_encode_cfg freq duty
  | enc freq duty len data => exact decode_encode_enc freq duty (of_decide_eq_true hwf) data

/-- Settles O2: the decoded command's fields are those of the word, and the fields are the whole word. -/
theorem encodeOfDecode : Obligations.EncodeOfDecode := by
  intro w i h
  rcases decode_legal_cases h with ⟨hw, rfl⟩ | ⟨hw, rfl⟩
  · exact ⟨rfl, encode_of_cfgFields hw⟩
  · exact ⟨decide_eq_true hw.len, encode_of_encFields hw⟩

/-- Settles O7: in range, every operand survives its field's width, and the line's word is its command's encoding. -/
theorem assembledLinesDecode : Obligations.AssembledLinesDecode := by
  refine ⟨fun f d => ⟨assemble_cfg_eq_none_iff f d, fun hf hd => ?_⟩,
    fun f d len data => ⟨assemble_enc_eq_none_iff f d len data, fun hf hd hlen hdata => ?_⟩⟩
  · refine ⟨_, assemble_cfg_of_le hf hd, _, _, decode_encode_cfg _ _, ?_, ?_⟩
    · exact Nat.mod_eq_of_lt (by omega)
    · exact Nat.mod_eq_of_lt (by omega)
  · have hlen6 : (BitVec.ofNat 6 len).toNat = len := Nat.mod_eq_of_lt (by omega)
    refine ⟨_, assemble_enc_of_le hf hd hlen hdata, _, _, _, _, decode_encode_enc _ _ (hlen6.trans_le hlen) _,
      ?_, ?_, hlen6, ?_⟩
    · exact Nat.mod_eq_of_lt (by omega)
    · exact Nat.mod_eq_of_lt (by omega)
    · exact Nat.mod_eq_of_lt (by omega)

/-- Settles O5: the legal ones of these words are encodings; the illegal ones have RSV1 not zero and OP 3. -/
theorem spelledWordsDecode : Obligations.SpelledWordsDecode :=
  ⟨decode_encode_cfg 36 25, decode_encode_enc 36 25 (len := 2) (by decide) 2,
    decode_encode_enc 255 255 (len := 32) (by decide) 0xFFFFFFFF, by decide, by decide⟩

end Sys2Proof.Proofs
end

section
/-! PROOFS of 40_carrier_configurator.md, continued, and of 45_transport_interface.md: the fields of the CLKDIV value
of a selector pair, the two commands in a row, and the waveform and the durations the fields give. -/

namespace Sys2Proof.Machine

/-! ### The fields of a selector pair's CLKDIV (R65, R69) -/

/-- Only the 100 % selector takes the full period. -/
theorem highOf_eq_self_iff {c : Nat} (hc : 0 < c) (d : Byte) : highOf c d = c ↔ d.toNat = 100 := by
  rcases highOf_cases c d with ⟨hd, h⟩ | ⟨rfl, h⟩
  · have hne : d.toNat ≠ 100 := fun h100 => hd (BitVec.eq_of_toNat_eq h100)
    omega
  · simp [h]

theorem clkPre_clkdivOf_toNat (f d : Byte) : (clkPre (clkdivOf f d)).toNat = 9 := by
  rw [clkdivOf, clkPre_packClkdiv, timing, (freqRow_bounds f).1]
  rfl

theorem clkN_clkdivOf_toNat (f d : Byte) : (clkN (clkdivOf f d)).toNat = (freqRow f).2 - 1 := by
  obtain ⟨-, -, hmax⟩ := freqRow_bounds f
  rw [clkdivOf, clkN_packClkdiv]
  exact Nat.mod_eq_of_lt (by simp only [timing]; omega)

theorem clkH_clkdivOf_toNat (f d : Byte) : (clkH (clkdivOf f d)).toNat = highOf (freqRow f).2 d := by
  obtain ⟨-, -, hmax⟩ := freqRow_bounds f
  have hle := highOf_le (freqRow f).2 d
  rw [clkdivOf, clkH_packClkdiv]
  exact Nat.mod_eq_of_lt (by simp only [timing]; omega)

/-! ### CFG and ENC, one after the other (R68, R75) -/

/-- A second configuration overwrites both registers and adds its own two events (R37, R67). -/
theorem State.configure_configure (f d f' d' : Byte) (s : State) :
    (s.configure f d).configure f' d' = { s.configure f' d' with
      trace := s.trace ++ [.wrmode Config.tmodeValue, .wrclk (clkdivOf f d)] ++
        [.wrmode Config.tmodeValue, .wrclk (clkdivOf f' d')] } := by
  simp only [State.configure_eq]

/-- ENC leaves STATUS free of UNDEF_LEN only when its LEN is not 0 (R79). -/
theorem State.len_pos_of_acceptEnc_noFault {f d : Byte} {len : Count} {data : Word} {s : State}
    (h : (s.acceptEnc f d len data).noFault) : 1 ≤ len.toNat := by
  by_contra hlt
  obtain ⟨-, hundef⟩ := h
  rw [State.acceptEnc_of_len_zero (by omega), State.raiseFault_undefLen] at hundef
  cases hundef

/-! ### Carrier period and frequency (R71, R90) -/

theorem periodTicks_clkdivOf (f d : Byte) : periodTicks (clkdivOf f d) = 10 * (freqRow f).2 := by
  obtain ⟨-, hmin, -⟩ := freqRow_bounds f
  rw [periodTicks, clkPre_clkdivOf_toNat, clkN_clkdivOf_toNat]
  omega

theorem periodTicks_pos (v : Word) : 0 < periodTicks v :=
  Nat.mul_pos (Nat.succ_pos _) (Nat.succ_pos _)

/-- Period and frequency are inverse, whatever CLKDIV holds. -/
theorem periodSeconds_mul_carrierHz (v : Word) : periodSeconds v * carrierHz v = 1 := by
  have hperiod : (periodTicks v : ℚ) ≠ 0 := by exact_mod_cast (periodTicks_pos v).ne'
  rw [periodSeconds, carrierHz]
  field_simp

theorem carrierHz_clkdivOf (f d : Byte) : carrierHz (clkdivOf f d) = 8000000 / ((freqRow f).2 : ℚ) := by
  rw [carrierHz, periodTicks_clkdivOf]
  push_cast
  rw [← div_div]
  norm_num

/-! ### Durations (R93, R120) -/

theorem transactionSeconds_clkdivOf (f d : Byte) :
    transactionSeconds Config.burstBits (clkdivOf f d) = 32 * (freqRow f).2 / 8000000 := by
  have hticks : transactionTicks Config.burstBits (clkdivOf f d) = 32 * (10 * (freqRow f).2) := by
    rw [transactionTicks, periodTicks_clkdivOf]
    rfl
  rw [transactionSeconds, hticks]
  push_cast
  ring

/-- The gaps of a command together are the sum of its gaps. -/
theorem gapSeconds_eq_sum (n : Nat) :
    gapSeconds n = ∑ i ∈ Finset.range n, (Config.interTxGap (i + 1) : ℚ) := by
  induction n with
  | zero => rfl
  | succ n ih => rw [Finset.sum_range_succ, gapSeconds, ih]

/-- No gap is negative. -/
theorem gapSeconds_nonneg (n : Nat) : 0 ≤ gapSeconds n := by
  rw [gapSeconds_eq_sum]
  exact Finset.sum_nonneg fun i _ => NNRat.coe_nonneg _

theorem commandSeconds_eq (v : Word) (len : Nat) :
    commandSeconds v len = len * burstPairSeconds v + gapSeconds (2 * len - 1) := by
  rw [commandSeconds, burstPairSeconds]
  ring

/-! ### SCLK (R91, R95) -/

theorem sclk_of_le {v : Word} (h : (clkH v).toNat ≤ (clkN v).toNat) (k tick : Nat) :
    sclk v k tick = decide (tick % periodTicks v < highTicks v) :=
  if_pos h

theorem highTicks_add_lowTicks {v : Word} (h : (clkH v).toNat ≤ (clkN v).toNat) :
    highTicks v + lowTicks v = periodTicks v := by
  rw [highTicks, lowTicks, periodTicks, ← Nat.mul_add]
  congr 1
  omega

/-- In the first period SCLK is high exactly in its first `highTicks` ticks. -/
theorem length_filter_sclk {v : Word} (h : (clkH v).toNat ≤ (clkN v).toNat) (k : Nat) :
    ((List.range (periodTicks v)).filter (sclk v k)).length = highTicks v := by
  have hsplit : List.range (periodTicks v) =
      List.range (highTicks v) ++ (List.range (lowTicks v)).map (highTicks v + ·) := by
    rw [← List.range_add, highTicks_add_lowTicks h]
  have hsum := highTicks_add_lowTicks h
  have hhigh : (List.range (highTicks v)).filter (sclk v k) = List.range (highTicks v) := by
    refine List.filter_eq_self.mpr fun i hi => ?_
    have hi := List.mem_range.mp hi
    rw [sclk_of_le h, Nat.mod_eq_of_lt (by omega)]
    exact decide_eq_true hi
  have hlow : ((List.range (lowTicks v)).map (highTicks v + ·)).filter (sclk v k) = [] := by
    refine List.filter_eq_nil_iff.mpr fun j hj => ?_
    obtain ⟨i, hi, rfl⟩ := List.mem_map.mp hj
    have hi := List.mem_range.mp hi
    rw [sclk_of_le h, Nat.mod_eq_of_lt (by omega)]
    simp
  rw [hsplit, List.filter_append, hhigh, hlow, List.append_nil, List.length_range]

theorem highTicks_div_periodTicks (v : Word) : (highTicks v : ℚ) / (periodTicks v : ℚ) = dutyFraction v := by
  have hpre : ((clkPre v).toNat : ℚ) + 1 ≠ 0 := by positivity
  rw [highTicks, periodTicks, dutyFraction]
  push_cast
  exact mul_div_mul_left _ _ hpre

theorem dutyFraction_clkdivOf (f d : Byte) :
    dutyFraction (clkdivOf f d) = ((timing f d).2.2 : ℚ) / ((timing f d).2.1 : ℚ) := by
  obtain ⟨-, hmin, -⟩ := freqRow_bounds f
  have hcyc : (((freqRow f).2 - 1 : Nat) : ℚ) + 1 = (freqRow f).2 := by
    exact_mod_cast Nat.sub_add_cancel (by omega : 1 ≤ (freqRow f).2)
  rw [dutyFraction, clkH_clkdivOf_toNat, clkN_clkdivOf_toNat, hcyc]
  rfl

/-! ### The output (R92, R109) -/

/-- With the output phase disabled nothing is sent (R109). -/
theorem irOutput_of_doutDisabled {x : Transaction} (h : tmodeDoutEn x.tmode = false) (k tick : Nat) :
    irOutput x k tick = false :=
  if_pos h

/-- Under the mode the block writes, the output is SCLK gated by the data bit, up to the end of the transaction. -/
theorem irOutput_of_tmodeValue {x : Transaction} (h : x.tmode = Config.tmodeValue) (k tick : Nat) :
    irOutput x k tick =
      (decide (tick < transactionTicks x.count x.clkdiv) && (sclk x.clkdiv k tick && dataBitAt x tick)) := by
  have hdout : tmodeDoutEn Config.tmodeValue ≠ false := by decide
  rw [irOutput, h, if_neg hdout, if_neg (not_not_intro rfl)]
  by_cases htick : tick < transactionTicks x.count x.clkdiv <;> simp [htick, idleOutput]

theorem dataBitAt_of_zero {x : Transaction} (h : x.pattern = 0x00000000#32) (tick : Nat) :
    dataBitAt x tick = false := by
  rw [dataBitAt, h]
  exact BitVec.getLsbD_zero

/-- Every bit of the high pattern that a 32-bit transaction sends is 1. -/
theorem dataBitAt_of_ones {x : Transaction} (h : x.pattern = 0xFFFFFFFF#32) (hcount : x.count = 32#6) (tick : Nat) :
    dataBitAt x tick = true := by
  have hones : (0xFFFFFFFF#32 : Word) = BitVec.allOnes 32 := rfl
  have hn : (32#6 : Count).toNat = 32 := rfl
  rw [dataBitAt, h, hcount, hones, hn, BitVec.getLsbD_allOnes]
  exact decide_eq_true (lt_of_le_of_lt (Nat.sub_le _ _) (by decide))

end Sys2Proof.Machine

namespace Sys2Proof.Proofs

open Sys2Proof.Machine

/-- Settles O13: CLKDIV holds the timing exactly, and only the 100 % formula is the whole cycle count. -/
theorem highCountWithinPeriod : Obligations.HighCountWithinPeriod := by
  intro f d
  obtain ⟨hpre, hmin, -⟩ := freqRow_bounds f
  have hle := highOf_le (freqRow f).2 d
  have hfull := highOf_eq_self_iff (c := (freqRow f).2) (by omega) d
  rw [clkH_clkdivOf_toNat, clkN_clkdivOf_toNat]
  simp only [timing]
  omega

/-- Settles O51: the row's pre-divider divides the 80 MHz by 10, and its cycle count gives the rest. -/
theorem carrierRates : Obligations.CarrierRates :=
  fun f d => ⟨carrierHz_clkdivOf f d, periodTicks_clkdivOf f d, periodSeconds_mul_carrierHz _⟩

/-- Settles O52: a command is its burst pairs and its gaps, none of which is negative. -/
theorem derivedDurations : Obligations.DerivedDurations := by
  intro f d len
  refine ⟨transactionSeconds_clkdivOf f d, ?_, ?_, ?_⟩
  · rw [burstPairSeconds, transactionSeconds_clkdivOf]
    ring
  · rw [commandSeconds_eq]
    exact le_add_of_nonneg_right (gapSeconds_nonneg _)
  · rw [commandSeconds_eq, gapSeconds_eq_sum]

/-- Settles O53: the high ticks come first, and the low ticks fill the rest of the period. -/
theorem sclkHighFirst : Obligations.SclkHighFirst := by
  refine ⟨fun v k tick h => ⟨?_, highTicks_add_lowTicks h, length_filter_sclk h k, highTicks_div_periodTicks v⟩,
    fun f d _ => dutyFraction_clkdivOf f d⟩
  rw [sclk_of_le h, decide_eq_true_iff]
  rfl

/-- Settles O15: CFG is the configuration sequence, which writes two registers and the trace. -/
theorem cfgCompletes : Obligations.CfgCompletes := by
  intro f d s hidle
  rw [exec_cfg_of_idle hidle, State.configure_eq, hidle]
  rfl

/-- Settles O17: the second configuration writes the values the first one left. -/
theorem cfgTwiceLeavesSameRegisters : Obligations.CfgTwiceLeavesSameRegisters := by
  intro f d s hidle
  refine ⟨_, _, exec_cfg_of_idle hidle f d, exec_cfg_of_idle (s := s.configure f d) hidle f d, fun _ => ?_⟩
  exact ⟨_, s.configure_trace f d, s.configure_configure f d f d⟩

/-- Settles O18: with no fault bit set LEN is not 0, and ENC then configures whatever the CFG left. -/
theorem encOverwritesEarlierCfg : Obligations.EncOverwritesEarlierCfg := by
  intro f d f' d' len data s hidle hle
  refine ⟨_, _, _, exec_cfg_of_idle hidle f d, exec_enc_of_idle (s := s.configure f d) hidle f' d' len data,
    exec_enc_of_idle hidle f' d' len data, fun hfault => ?_⟩
  have hpos := State.len_pos_of_acceptEnc_noFault hfault
  simp only [State.acceptEnc_of_len hpos hle, State.configure_configure] at hfault ⊢
  refine ⟨hfault, rfl, _, s.configure_trace f' d', ?_⟩
  rw [State.configure_trace]
  rfl

/-- Settles O19: with LEN from 1 to 32 the accepting step is the configuration, the latches and the first issue. -/
theorem encCompletes : Obligations.EncCompletes := by
  intro f d len data s hidle hpos hle
  rw [exec_enc_of_idle hidle, State.acceptEnc_of_len hpos hle, State.configure_eq]
  rfl

/-- Settles O54: under mode 0x41 the output is the conjunction of SCLK, the data bit and the time before the end. -/
theorem outputIsGatedCarrier : Obligations.OutputIsGatedCarrier := by
  intro x k tick hmode
  rw [irOutput_of_tmodeValue hmode]
  refine ⟨fun h => ?_, fun hzero => ?_, fun hones hcount htick => ?_⟩
  · simp only [Bool.and_eq_true, decide_eq_true_eq] at h
    obtain ⟨htick, hsclk, hbit⟩ := h
    exact ⟨hsclk, htick, hbit⟩
  · rw [dataBitAt_of_zero hzero, Bool.and_false, Bool.and_false]
  · have hbefore : tick < transactionTicks x.count x.clkdiv := by rwa [transactionTicks, hcount]
    rw [dataBitAt_of_ones hones hcount, Bool.and_true, decide_eq_true hbefore, Bool.true_and]

/-- Settles O55: the period and SCLK read the other three fields only. -/
theorem lowFieldHasNoEffect : Obligations.LowFieldHasNoEffect := by
  refine ⟨fun f d => clkL_packClkdiv _ _ _, fun v w k tick hpre hn hh => ?_⟩
  have hperiod : periodTicks v = periodTicks w := by rw [periodTicks, periodTicks, hpre, hn]
  have hhigh : highTicks v = highTicks w := by rw [highTicks, highTicks, hpre, hh]
  refine ⟨hperiod, fun hle => ?_⟩
  rw [sclk_of_le hle, sclk_of_le (hh ▸ hn ▸ hle), hperiod, hhigh]

end Sys2Proof.Proofs
end

section
/-! PROOFS of 41_pulse_encoder.md, continued, and of the serial order of 20_memory.md: the burst sequence by its
positions and by what the inverse rule reads from it, the bits a transaction sends, and the completion step. -/

namespace Sys2Proof.Machine

/-! ### The patterns of a burst pair (R73) -/

theorem pat_uniform (b half : Fin 2) : pat b half = Config.patHigh ∨ pat b half = Config.patLow := by
  unfold pat
  split
  · exact .inl rfl
  · exact .inr rfl

/-- The two halves of a bit never send the same pattern. -/
theorem burstEvent_zero_ne_one (data : Word) (pos : Nat) : burstEvent data pos 0 ≠ burstEvent data pos 1 := by
  have hpat : ∀ b : Fin 2, pat b 0 ≠ pat b 1 := by decide
  exact fun h => hpat _ (Event.xfer.inj h).2

/-! ### The burst sequence by positions (R74) -/

@[simp] theorem burstSeq_length (data : Word) (len : Nat) : (burstSeq data len).length = 2 * len := by
  induction len with
  | zero => rfl
  | succ len ih =>
    rw [burstSeq_succ, List.length_append, ih, burstPair]
    simp only [List.length_cons, List.length_nil]
    omega

/-- The transaction for `half` of bit `pos` stands where SEQ comes to it: after the pairs of the higher bits. -/
theorem burstSeq_getElem? (data : Word) {pos len : Nat} (hpos : pos < len) (half : Fin 2) :
    (burstSeq data len)[2 * (len - 1 - pos) + half.val]? = some (burstEvent data pos half) := by
  induction len with
  | zero => omega
  | succ len ih =>
    rw [burstSeq_succ]
    rcases Nat.lt_succ_iff_lt_or_eq.mp hpos with hlt | rfl
    · have hindex : 2 * (len + 1 - 1 - pos) + half.val = (burstPair data len).length +
          (2 * (len - 1 - pos) + half.val) := by
        simp only [burstPair, List.length_cons, List.length_nil]
        omega
      rw [hindex, List.getElem?_append_right (Nat.le_add_right _ _), Nat.add_sub_cancel_left, ih hlt]
    · rw [Nat.add_sub_cancel, Nat.sub_self, Nat.mul_zero, Nat.zero_add]
      match half with
      | 0 => rfl
      | 1 => rfl

/-- Every event of a burst sequence is the transaction of some half of some bit. -/
theorem mem_burstSeq {data : Word} {len : Nat} {e : Event} (h : e ∈ burstSeq data len) :
    ∃ pos half, e = burstEvent data pos half := by
  obtain ⟨pos, -, he⟩ := List.mem_flatMap.mp h
  rw [burstPair, List.mem_pair] at he
  rcases he with rfl | rfl
  · exact ⟨pos, 0, rfl⟩
  · exact ⟨pos, 1, rfl⟩

/-! ### Reading a burst sequence back (R83) -/

/-- The low `len` bits of DATA, most significant first. -/
def lowBits (data : Word) (len : Nat) : List (Fin 2) := (List.range len).reverse.map (bitAt data)

@[simp] theorem lowBits_length (data : Word) (len : Nat) : (lowBits data len).length = len := by
  simp [lowBits]

theorem lowBits_succ (data : Word) (len : Nat) : lowBits data (len + 1) = bitAt data len :: lowBits data len := by
  simp [lowBits, List.range_succ]

/-- The inverse rule reads a bit back from its burst pair. -/
theorem decodePair_burstEvent (data : Word) (pos : Nat) :
    decodePair (burstEvent data pos 0) (burstEvent data pos 1) = some (bitAt data pos) := by
  have hpair : ∀ b : Fin 2,
      decodePair (.xfer Config.burstBits (pat b 0)) (.xfer Config.burstBits (pat b 1)) = some b := by decide
  exact hpair _

theorem decodeBursts_burstSeq (data : Word) (len : Nat) :
    decodeBursts (burstSeq data len) = some (lowBits data len) := by
  induction len with
  | zero => rfl
  | succ len ih =>
    rw [burstSeq_succ, lowBits_succ, burstPair]
    simp only [List.cons_append, List.nil_append, decodeBursts, decodePair_burstEvent, ih]

/-- The number read after some bits is those bits shifted up past the later ones. -/
theorem foldl_bits (bits : List (Fin 2)) (acc : Nat) :
    bits.foldl (fun acc b => 2 * acc + b.val) acc = acc * 2 ^ bits.length + bitsValue bits := by
  induction bits generalizing acc with
  | nil => simp [bitsValue]
  | cons b bits ih =>
    rw [bitsValue, List.foldl_cons, List.foldl_cons, ih, ih (2 * 0 + b.val), List.length_cons, Nat.pow_succ]
    ring

theorem bitsValue_cons (b : Fin 2) (bits : List (Fin 2)) :
    bitsValue (b :: bits) = b.val * 2 ^ bits.length + bitsValue bits := by
  rw [bitsValue, List.foldl_cons, foldl_bits, Nat.mul_zero, Nat.zero_add]

theorem bitAt_val_eq_mod (data : Word) (pos : Nat) : (bitAt data pos).val = data.toNat / 2 ^ pos % 2 := by
  rw [bitAt_val, BitVec.getLsbD, ← Nat.toNat_testBit]
  cases data.toNat.testBit pos <;> rfl

theorem bitsValue_lowBits (data : Word) (len : Nat) : bitsValue (lowBits data len) = data.toNat % 2 ^ len := by
  induction len with
  | zero => simp [lowBits, bitsValue, Nat.mod_one]
  | succ len ih =>
    rw [lowBits_succ, bitsValue_cons, lowBits_length, ih, bitAt_val_eq_mod, Nat.mod_pow_succ]
    ring

/-! ### The bits a transaction sends (R35) -/

theorem sentBits_length (n : Count) (p : Word) : (sentBits n p).length = n.toNat := by
  simp [sentBits]

theorem sentBits_getElem? (n : Count) (p : Word) {i : Nat} (hi : i < n.toNat) :
    (sentBits n p)[i]? = some (p.getLsbD (n.toNat - 1 - i)) := by
  rw [sentBits, List.getElem?_map, List.getElem?_reverse (by simpa using hi), List.length_range,
    List.getElem?_range (by omega), Option.map_some]

/-- A pattern whose bits are all alike reads the same in either order. -/
theorem sentBits_reverse_of_uniform {n : Count} {p : Word} {b : Bool} (h : ∀ i < n.toNat, p.getLsbD i = b) :
    (sentBits n p).reverse = sentBits n p := by
  have hrep : sentBits n p = List.replicate n.toNat b := by
    refine List.eq_replicate_iff.mpr ⟨sentBits_length n p, fun c hc => ?_⟩
    obtain ⟨i, hi, rfl⟩ := List.mem_map.mp hc
    exact h i (List.mem_range.mp (List.mem_reverse.mp hi))
  rw [hrep, List.reverse_replicate]

/-! ### The completion step and a command held off (R77, R80) -/

/-- An acknowledgement of the transaction in flight is the completion step (R77). -/
theorem transportTurn_of_wait {s : State} {pos : Nat} {half : Fin 2} (h : s.seq = .wait pos half) :
    transportTurn s = .next (s.stepAck pos half) := by
  simp only [transportTurn, h]

/-- In `Wait` BLOCK has no step without ACK (R77). -/
theorem blockTurn_of_wait {s : State} {pos : Nat} {half : Fin 2} (h : s.seq = .wait pos half) :
    blockTurn s = .next s := by
  simp only [blockTurn, h]

theorem exec_of_busy {s : State} (h : s.seq ≠ .idle) (i : Instr) : exec i s = .next s := by
  cases i with
  | cfg f d => exact whenIdle_of_busy h
  | enc f d len data => exact whenIdle_of_busy h

end Sys2Proof.Machine

namespace Sys2Proof.Proofs

open Sys2Proof.Machine

/-- Settles O25: bit `len - 1 - i` has its pair at `2 * i`, and the two halves of a pair differ. -/
theorem burstSequenceShape : Obligations.BurstSequenceShape := by
  intro data len
  refine ⟨burstSeq_length data len, fun e he => ?_, fun i hi => ?_⟩
  · obtain ⟨pos, half, rfl⟩ := mem_burstSeq he
    rcases pat_uniform (bitAt data pos) half with h | h
    · exact .inl (by rw [burstEvent, h])
    · exact .inr (by rw [burstEvent, h])
  · have hpos : len - 1 - i < len := by omega
    have hindex : len - 1 - (len - 1 - i) = i := by omega
    have hzero := burstSeq_getElem? data hpos 0
    have hone := burstSeq_getElem? data hpos 1
    rw [hindex] at hzero hone
    exact ⟨_, _, burstEvent_zero_ne_one data (len - 1 - i), hzero, hone⟩

/-- Settles O26: each pair reads back as its bit, and the bits, most significant first, are the low bits of DATA. -/
theorem burstSequenceDecodes : Obligations.BurstSequenceDecodes :=
  fun data len => ⟨_, decodeBursts_burstSeq data len, lowBits_length data len, bitsValue_lowBits data len⟩

/-- Settles O33: position `i` of the reversed range is bit `n - 1 - i`, and both patterns are uniform. -/
theorem serialBitOrder : Obligations.SerialBitOrder := by
  refine ⟨fun n p => ⟨sentBits_length n p, fun i hi => sentBits_getElem? n p hi⟩, fun b half => ?_⟩
  rcases pat_uniform b half with h | h
  · rw [h]
    exact sentBits_reverse_of_uniform (b := true) (by decide)
  · rw [h]
    exact sentBits_reverse_of_uniform (b := false) (by decide)

/-- Settles O22: both commands take effect through the command port only, which a busy block keeps closed. -/
theorem busyBlockHoldsCommandsOff : Obligations.BusyBlockHoldsCommandsOff :=
  fun i _ hbusy => exec_of_busy hbusy i

/-- Settles O24: `Wait` has one move, TRANSPORT's, and it writes SEQ only. -/
theorem ackStepAdvancesSequencer : Obligations.AckStepAdvancesSequencer :=
  fun _ _ _ hwait => ⟨transportTurn_of_wait hwait, blockTurn_of_wait hwait⟩

end Sys2Proof.Proofs
end

section
/-! PROOFS about the step as a whole (00_scope.md, 10_state.md, 60_exceptions.md, 70_reset_and_hazards.md): a turn as
one effect on the state, everything a step can do as a list of cases, and what the cases have in common. -/

namespace Sys2Proof.Machine

/-! ### A turn as an effect on the state -/

/-- What accepting a word while SEQ is Idle does to the state. -/
def wordEffect (w : CmdWord) : State → State :=
  match decode w with
  | .legal (.cfg f d) => State.configure f d
  | .legal (.enc f d len data) => State.acceptEnc f d len data
  | .illegal _ => State.raiseFault .illegal

theorem acceptWord_eq_wordEffect {s : State} (hidle : s.seq = .idle) (w : CmdWord) :
    acceptWord w s = .next (wordEffect w s) := by
  unfold acceptWord wordEffect
  match decode w with
  | .legal (.cfg f d) => exact exec_cfg_of_idle hidle f d
  | .legal (.enc f d len data) => exact exec_enc_of_idle hidle f d len data
  | .illegal _ => exact whenIdle_of_idle hidle

theorem wordEffect_of_illegal {w : CmdWord} {why : Illegal} (h : decode w = .illegal why) :
    wordEffect w = State.raiseFault .illegal := by
  rw [wordEffect, h]

theorem wordEffect_of_cfg {w : CmdWord} {f d : Byte} (h : decode w = .legal (.cfg f d)) :
    wordEffect w = State.configure f d := by
  rw [wordEffect, h]

theorem wordEffect_of_enc {w : CmdWord} {f d : Byte} {len : Count} {data : Word}
    (h : decode w = .legal (.enc f d len data)) : wordEffect w = State.acceptEnc f d len data := by
  rw [wordEffect, h]

/-- What a turn does to the state: SEQ and the word on the command port select it. -/
def turnEffect : Turn → Seq → Option CmdWord → State → State
  | .host, .idle, some w => fun s => wordEffect w s.popCmd
  | .hostStat, _, _ => State.readStat
  | .block, .issue pos half, _ => State.stepIssue pos half
  | .transport, .wait pos half, _ => State.stepAck pos half
  | .reset, _, _ => State.resetBlock
  | _, _, _ => id

theorem hostTurn_eq_turnEffect (s : State) : hostTurn s = .next (turnEffect .host s.seq s.presented s) := by
  unfold hostTurn
  split
  · next w hidle hword =>
    rw [hidle, hword]
    exact acceptWord_eq_wordEffect (s := s.popCmd) hidle w
  · next hidle hword => rw [hidle, hword]; rfl
  · next hissue => rw [hissue]; rfl
  · next hwait => rw [hwait]; rfl

theorem takeTurn_eq_turnEffect (t : Turn) (s : State) : takeTurn t s = .next (turnEffect t s.seq s.presented s) := by
  cases t with
  | host => exact hostTurn_eq_turnEffect s
  | hostStat => rfl
  | block =>
    cases hseq : s.seq with
    | issue pos half => exact blockTurn_of_issue hseq
    | idle => simp only [takeTurn, blockTurn, hseq]; rfl
    | wait pos half => exact blockTurn_of_wait hseq
  | transport =>
    cases hseq : s.seq with
    | wait pos half => exact transportTurn_of_wait hseq
    | idle => exact transportTurn_of_idle hseq
    | issue pos half => simp only [takeTurn, transportTurn, hseq]; rfl
  | reset => rfl

/-- Every step goes on, with the effect of the turn taken. -/
theorem step_eq_turnEffect (s : State) :
    step s = .next (turnEffect s.nextTurn s.seq s.presented s.popTurn) :=
  takeTurn_eq_turnEffect s.nextTurn s.popTurn

/-! ### Everything a step can do -/

/-- It is HOST's turn, the command port is open, and `w` is the word there. -/
structure State.Presents (s : State) (w : CmdWord) : Prop where
  idle : s.seq = .idle
  turn : s.nextTurn = .host
  word : s.presented = some w

theorem State.Presents.cmd_eq {s : State} {w : CmdWord} (h : s.Presents w) : s.env.cmd = w :: s.env.cmd.tail :=
  List.eq_cons_of_mem_head? h.word

/-- The steps of the system, with the four outcomes of a word apart. -/
inductive Move (s : State) : State → Prop where
  | reset (hturn : s.nextTurn = .reset) : Move s s.popTurn.resetBlock
  | readStat (hturn : s.nextTurn = .hostStat) : Move s s.popTurn.readStat
  | illegal {w : CmdWord} {why : Illegal} (hport : s.Presents w) (hw : decode w = .illegal why) :
      Move s (s.popTurn.popCmd.raiseFault .illegal)
  | cfg {w : CmdWord} {f d : Byte} (hport : s.Presents w) (hw : decode w = .legal (.cfg f d)) :
      Move s (s.popTurn.popCmd.configure f d)
  | encZero {w : CmdWord} {f d : Byte} {data : Word} (hport : s.Presents w)
      (hw : decode w = .legal (.enc f d 0#6 data)) :
      Move s ((s.popTurn.popCmd.configure f d).raiseFault .undefLen)
  | enc {w : CmdWord} {f d : Byte} {len : Count} {data : Word} (hport : s.Presents w)
      (hw : decode w = .legal (.enc f d len data)) (hpos : 1 ≤ len.toNat) (hle : len.toNat ≤ 32) :
      Move s (((s.popTurn.popCmd.configure f d).latch data len.toNat).setSeq (.issue (len.toNat - 1) 0))
  | issue {pos : Nat} {half : Fin 2} (hturn : s.nextTurn = .block) (hseq : s.seq = .issue pos half) :
      Move s (s.popTurn.stepIssue pos half)
  | ack {pos : Nat} {half : Fin 2} (hturn : s.nextTurn = .transport) (hseq : s.seq = .wait pos half) :
      Move s (s.popTurn.stepAck pos half)
  | pass (hreset : s.nextTurn ≠ .reset) : Move s s.popTurn

/-- A word accepted is one of the four: it is ILLEGAL, CFG, ENC with LEN = 0, or ENC with LEN from 1 to 32. -/
theorem move_of_acceptWord {s t : State} {w : CmdWord} (hport : s.Presents w)
    (h : acceptWord w s.popTurn.popCmd = .next t) : Move s t := by
  rcases acceptWord_idle (w := w) (s := s.popTurn.popCmd) hport.idle with
    ⟨why, hw, h'⟩ | ⟨f, d, hw, h'⟩ | ⟨f, d, len, data, hw, h'⟩
  · rw [h'] at h; cases h
    exact .illegal hport hw
  · rw [h'] at h; cases h
    exact .cfg hport hw
  · rw [h'] at h; cases h
    rcases acceptEnc_cases f d len data s.popTurn.popCmd with ⟨hlt, -⟩ | ⟨hzero, he⟩ | ⟨hpos, hle, he⟩
    · exact absurd (len_le_of_decode hw) (by omega)
    · obtain rfl : len = 0#6 := BitVec.eq_of_toNat_eq hzero
      exact he ▸ .encZero hport hw
    · exact he ▸ .enc hport hw hpos hle

theorem step_move {s t : State} (h : step s = .next t) : Move s t := by
  rcases step_cases h with ⟨hturn, rfl⟩ | ⟨hturn, rfl⟩ | ⟨hturn, hidle, w, hword, haccept⟩ |
    ⟨pos, half, hturn, hissue, rfl⟩ | ⟨pos, half, hturn, hwait, rfl⟩ | ⟨hreset, -, rfl⟩
  · exact .reset hturn
  · exact .readStat hturn
  · exact move_of_acceptWord ⟨hidle, hturn, hword⟩ haccept
  · exact .issue hturn hissue
  · exact .ack hturn hwait
  · exact .pass hreset

/-! ### The turn and the word a step takes -/

theorem step_of_presents {s : State} {w : CmdWord} (h : s.Presents w) :
    step s = .next (wordEffect w s.popTurn.popCmd) := by
  rw [step_eq_turnEffect, h.turn, h.idle, h.word]
  rfl

/-- On HOST's turn in Idle the block accepts the first word, on the state with that word and that turn taken. -/
theorem step_of_host {s : State} {w : CmdWord} {words : List CmdWord} (hidle : s.seq = .idle)
    (hturn : s.nextTurn = .host) (hcmd : s.env.cmd = w :: words) :
    step s = acceptWord w { s with env := { s.env with cmd := words, turns := s.env.turns.tail } } := by
  have hpop : s.popTurn.popCmd = { s with env := { s.env with cmd := words, turns := s.env.turns.tail } } := by
    rw [← List.tail_cons (a := w) (as := words), ← hcmd]
    rfl
  rw [step_of_presents ⟨hidle, hturn, by rw [State.presented, hcmd]; rfl⟩, hpop, acceptWord_eq_wordEffect]
  exact hidle

theorem nextTurn_of_turns_nil_idle {s : State} (hnil : s.env.turns = []) (hidle : s.seq = .idle) :
    s.nextTurn = .host := by
  simp only [State.nextTurn, hnil, hidle]

theorem nextTurn_of_turns_nil_busy {s : State} (hnil : s.env.turns = []) (hbusy : s.seq ≠ .idle) :
    s.nextTurn = .block := by
  unfold State.nextTurn
  rw [hnil]
  cases hseq : s.seq with
  | idle => exact absurd hseq hbusy
  | issue pos half => rfl
  | wait pos half => rfl

theorem nextTurn_of_turns_cons {s : State} {t : Turn} {ts : List Turn} (h : s.env.turns = t :: ts) :
    s.nextTurn = t := by
  simp only [State.nextTurn, h]

/-- With none listed the next turn is HOST's or BLOCK's; a property of these two and of the turn listed first holds of
the turn taken. -/
theorem nextTurn_induction {P : Turn → Prop} {s : State} (hhost : P .host) (hblock : P .block)
    (hlisted : ∀ t ∈ s.env.turns.take 1, P t) : P s.nextTurn := by
  cases hturns : s.env.turns with
  | nil =>
    by_cases hidle : s.seq = .idle
    · exact nextTurn_of_turns_nil_idle hturns hidle ▸ hhost
    · exact nextTurn_of_turns_nil_busy hturns hidle ▸ hblock
  | cons t ts =>
    rw [nextTurn_of_turns_cons hturns]
    exact hlisted t (by rw [hturns]; exact List.mem_cons_self)

/-! ### STATUS on the STAT port (R25, R29) -/

/-- STATUS bit by bit: each join takes in the next higher bits. -/
theorem State.stat_getLsbD (s : State) (i : Nat) :
    s.stat.getLsbD i = if i < 1 then (BitVec.ofBool s.status.illegal).getLsbD i
      else if i - 1 < 1 then (BitVec.ofBool s.status.undefLen).getLsbD (i - 1)
      else if i - 1 - 1 < 1 then (BitVec.ofBool s.busy).getLsbD (i - 1 - 1)
      else (0#5).getLsbD (i - 1 - 1 - 1) := by
  rw [← BitVec.getLsbD_append, ← BitVec.getLsbD_append, ← BitVec.getLsbD_append]
  rfl

theorem State.stat_illegal (s : State) : s.stat.getLsbD 0 = s.status.illegal := by
  rw [State.stat_getLsbD]; simp

theorem State.stat_undefLen (s : State) : s.stat.getLsbD 1 = s.status.undefLen := by
  rw [State.stat_getLsbD]; simp

theorem State.stat_busy (s : State) : s.stat.getLsbD 2 = s.busy := by
  rw [State.stat_getLsbD]; simp

theorem State.stat_high (s : State) {i : Nat} (hi : 3 ≤ i) : s.stat.getLsbD i = false := by
  rw [State.stat_getLsbD, if_neg (by omega), if_neg (by omega), if_neg (by omega)]
  exact BitVec.getLsbD_zero

/-! ### The fault bits (R98, R101, R102) -/

/-- Without a reset a fault bit stays set. -/
theorem step_keeps_faults {s t : State} (hreset : s.nextTurn ≠ .reset) (h : step s = .next t) :
    (s.status.illegal = true → t.status.illegal = true) ∧ (s.status.undefLen = true → t.status.undefLen = true) := by
  cases step_move h with
  | reset hturn => exact absurd hturn hreset
  | _ => simp

/-- ILLEGAL is newly set by an ILLEGAL word only. -/
theorem step_sets_illegal {s t : State} (h : step s = .next t) (hclear : s.status.illegal = false)
    (hset : t.status.illegal = true) : ∃ w why, s.Presents w ∧ decode w = .illegal why := by
  cases step_move h with
  | illegal hport hw => exact ⟨_, _, hport, hw⟩
  | _ => simp [hclear] at hset

/-- UNDEF_LEN is newly set by an ENC with LEN = 0 only. -/
theorem step_sets_undefLen {s t : State} (h : step s = .next t) (hclear : s.status.undefLen = false)
    (hset : t.status.undefLen = true) : ∃ w f d x, s.Presents w ∧ decode w = .legal (.enc f d 0#6 x) := by
  cases step_move h with
  | encZero hport hw => exact ⟨_, _, _, _, hport, hw⟩
  | _ => simp [hclear] at hset

/-! ### The events of a step (R24, R56, R73) -/

theorem burstEvent_emittable (data : Word) (pos : Nat) (half : Fin 2) : (burstEvent data pos half).emittable :=
  ⟨rfl, pat_uniform _ _⟩

/-- Both events of a configuration are emittable. -/
theorem configuration_emittable (f d : Byte) :
    ∀ e ∈ [Event.wrmode Config.tmodeValue, .wrclk (clkdivOf f d)], e.emittable := by
  intro e he
  rcases List.mem_pair.mp he with rfl | rfl
  · rfl
  · exact ⟨f, d, rfl⟩

/-- A step other than reset adds nothing to the trace, a configuration, or the transaction SEQ stands at. -/
theorem step_trace_cases {s t : State} (hreset : s.nextTurn ≠ .reset) (h : step s = .next t) :
    t.trace = s.trace ∨
    (s.seq = .idle ∧ ∃ f d, t.trace = s.trace ++ [.wrmode Config.tmodeValue, .wrclk (clkdivOf f d)]) ∨
    (∃ pos half, s.seq = .issue pos half ∧ t = s.popTurn.stepIssue pos half) := by
  cases step_move h with
  | reset hturn => exact absurd hturn hreset
  | readStat | ack | pass => exact .inl rfl
  | illegal => exact .inl rfl
  | cfg hport => exact .inr (.inl ⟨hport.idle, _, _, State.configure_trace ..⟩)
  | encZero hport | enc hport => exact .inr (.inl ⟨hport.idle, _, _, State.configure_trace ..⟩)
  | issue _ hseq => exact .inr (.inr ⟨_, _, hseq, rfl⟩)

/-! ### A running command (R42, R43, R82) -/

/-- A busy block writes neither register, nor STATUS, nor a latch. -/
theorem step_of_busy_frame {s t : State} (hbusy : s.seq ≠ .idle) (hreset : s.nextTurn ≠ .reset)
    (h : step s = .next t) :
    t.clkdiv = s.clkdiv ∧ t.tmode = s.tmode ∧ t.status = s.status ∧ t.dataL = s.dataL ∧ t.lenL = s.lenL := by
  cases step_move h with
  | reset hturn => exact absurd hturn hreset
  | illegal hport | cfg hport | encZero hport | enc hport => exact absurd hport.idle hbusy
  | readStat | issue | ack | pass => exact ⟨rfl, rfl, rfl, rfl, rfl⟩

/-- The state with other words for HOST to present. -/
def State.withCmd (words : List CmdWord) (s : State) : State := { s with env := { s.env with cmd := words } }

/-- Only HOST's turn in Idle reads HOST's words or writes them. -/
theorem turnEffect_withCmd {t : Turn} {q : Seq} (hclosed : t = .host → q ≠ .idle) (o o' : Option CmdWord)
    (words : List CmdWord) (s : State) :
    turnEffect t q o (s.withCmd words) = (turnEffect t q o' s).withCmd words := by
  cases t with
  | host =>
    cases q with
    | idle => exact absurd rfl (hclosed rfl)
    | issue | wait => rfl
  | block | transport => cases q <;> rfl
  | hostStat | reset => rfl

/-- The transaction in flight is there in `Wait` only. -/
theorem State.inFlight_of_wait {s : State} {pos : Nat} {half : Fin 2} (h : s.seq = .wait pos half) :
    s.inFlight = some
      { count := Config.burstBits
        pattern := pat (bitAt s.dataL pos) half
        clkdiv := s.clkdiv
        tmode := s.tmode } := by
  simp only [State.inFlight, h]

theorem State.inFlight_ne_none_iff (s : State) : s.inFlight ≠ none ↔ ∃ pos half, s.seq = .wait pos half := by
  unfold State.inFlight
  split <;> simp_all

/-- The transaction in flight is SEQ's, DATA_L's and the two registers' to say (R30). -/
theorem State.inFlight_congr {s t : State} (hseq : t.seq = s.seq) (hdata : t.dataL = s.dataL)
    (hclk : t.clkdiv = s.clkdiv) (hmode : t.tmode = s.tmode) : t.inFlight = s.inFlight := by
  rw [State.inFlight, State.inFlight, hseq, hdata, hclk, hmode]

/-- Only an acknowledgement or a reset ends `Wait` (R88, R110). -/
theorem step_keeps_wait {s t : State} {pos : Nat} {half : Fin 2} (hwait : s.seq = .wait pos half)
    (hack : s.nextTurn ≠ .transport) (hreset : s.nextTurn ≠ .reset) (h : step s = .next t) : t.seq = s.seq := by
  have hbusy : s.seq ≠ .idle := by simp [hwait]
  cases step_move h with
  | reset hturn => exact absurd hturn hreset
  | illegal hport | cfg hport | encZero hport | enc hport => exact absurd hport.idle hbusy
  | issue _ hseq => rw [hwait] at hseq; cases hseq
  | ack hturn => exact absurd hturn hack
  | readStat | pass => rfl

/-- After an acknowledgement no transaction is in flight: SEQ is `Issue` or Idle (R77). -/
theorem State.stepAck_inFlight (s : State) (pos : Nat) (half : Fin 2) : (s.stepAck pos half).inFlight = none := by
  rw [State.inFlight, State.stepAck_seq, seqAfterAck]
  split_ifs <;> rfl

/-- TRANSPORT's turn in `Wait` is the completion step. -/
theorem step_of_ack {s : State} {pos : Nat} {half : Fin 2} (hwait : s.seq = .wait pos half)
    (hturn : s.nextTurn = .transport) : step s = .next (s.popTurn.stepAck pos half) := by
  rw [step, stepTurn, hturn]
  exact transportTurn_of_wait hwait

end Sys2Proof.Machine

namespace Sys2Proof.Proofs

open Sys2Proof.Machine

/-- Settles O47: every turn has an effect. -/
theorem everyStepContinues : Obligations.EveryStepContinues :=
  fun s => ⟨_, step_eq_turnEffect s⟩

/-- Settles O46: the step takes the next turn on the state without it, and the turn names the agent. -/
theorem stepMovesTheAgentWhoseTurnItIs : Obligations.StepMovesTheAgentWhoseTurnItIs := by
  rintro s u rfl
  have hstep {τ : Turn} (h : s.nextTurn = τ) : step s = takeTurn τ s.popTurn := by rw [← h]; rfl
  exact ⟨hstep, hstep, hstep, hstep, fun h => ⟨hstep h, rfl⟩, nextTurn_of_turns_nil_idle,
    nextTurn_of_turns_nil_busy, fun _ _ => nextTurn_of_turns_cons⟩

/-- Settles O45: HOST's turn in Idle accepts the first word, which is decoded and run, or raises ILLEGAL. -/
theorem stepRunsDecodedCommand : Obligations.StepRunsDecodedCommand := by
  refine ⟨fun s w words i hidle hturn hcmd hw => ?_, fun s w words why hidle hturn hcmd hw => ?_,
    fun s nbits w i hw => ?_⟩
  · rw [step_of_host hidle hturn hcmd, acceptWord, hw]
  · exact (step_of_host hidle hturn hcmd).trans (acceptWord_of_illegal hw hidle)
  · have hdecode : decode (tableWord nbits w) = .legal i := by
      unfold decodeTableWord at hw
      split at hw
      · next j hj => rw [hj, Option.some.inj hw]
      · cases hw
    have hstep := step_of_host (s := s.withFetchWord nbits w) (w := tableWord nbits w) (words := s.env.cmd) rfl rfl rfl
    rw [hstep, acceptWord, hdecode]
    rfl

/-- Settles O36: the two bits are newly set by different words. -/
theorem atMostOneFaultPerStep : Obligations.AtMostOneFaultPerStep := by
  rintro s t h ⟨⟨hillegal, hillegal'⟩, hundef, hundef'⟩
  obtain ⟨w, why, hport, hw⟩ := step_sets_illegal h hillegal hillegal'
  obtain ⟨w', f, d, x, hport', hw'⟩ := step_sets_undefLen h hundef hundef'
  obtain rfl : w = w' := Option.some.inj (hport.word.symm.trans hport'.word)
  rw [hw] at hw'
  cases hw'

/-- Settles O35: the layout bit by bit; each bit is set by its own word, and by no other step. -/
theorem statusBits : Obligations.StatusBits := by
  refine ⟨fun s => ⟨s.stat_illegal, s.stat_undefLen, ?_, fun i hi => s.stat_high hi⟩, fun s w hidle hturn hword => ?_,
    fun s t h hreset => ?_, fun s hreset => ⟨_, step_of_reset hreset, State.resetBlock_noFault _⟩,
    fun s => ⟨rfl, rfl, rfl, rfl⟩⟩
  · rw [State.stat_busy, State.busy_eq_true]
  · have hstep := step_of_presents ⟨hidle, hturn, hword⟩
    refine ⟨fun why hw => ⟨_, hstep, ?_⟩, fun f d x hw => ⟨_, hstep, ?_⟩⟩
    · rw [wordEffect_of_illegal hw]
      rfl
    · rw [wordEffect_of_enc hw, State.acceptEnc_of_len_zero rfl]
      rfl
  · obtain ⟨hillegal, hundef⟩ := step_keeps_faults hreset h
    refine ⟨hillegal, hundef, fun hclear hset => ?_, fun hclear hset => ?_⟩
    · obtain ⟨w, why, hport, hw⟩ := step_sets_illegal h hclear hset
      exact ⟨hport.idle, hport.turn, w, why, hport.word, hw⟩
    · obtain ⟨w, f, d, x, hport, hw⟩ := step_sets_undefLen h hclear hset
      exact ⟨hport.idle, hport.turn, w, f, d, x, hport.word, hw⟩

/-- Settles O38: BUSY is the view of SEQ, and CFG leaves SEQ as it is. -/
theorem busyIsSeqNotIdle : Obligations.BusyIsSeqNotIdle := by
  refine ⟨fun s => ⟨s.busy_eq_true, s.stat_busy⟩, fun s hbusy => ?_, fun f d s hbusy => ?_⟩
  · rw [State.busy_eq_true] at hbusy
    rw [hostTurn_eq_turnEffect]
    cases hseq : s.seq with
    | idle => exact absurd hseq hbusy
    | issue pos half => rfl
    | wait pos half => rfl
  · have hidle : s.seq = .idle := by
      by_contra h
      rw [(State.busy_eq_true s).mpr h] at hbusy
      cases hbusy
    exact ⟨_, exec_cfg_of_idle hidle f d, hbusy⟩

/-- Settles O39: only a word HOST presents is taken, and it presents one in Idle only. -/
theorem commandPortLosesNoWord : Obligations.CommandPortLosesNoWord := by
  intro s t h
  have hcases : t.env.cmd = s.env.cmd ∨ ∃ w, s.Presents w ∧ t.env.cmd = s.env.cmd.tail := by
    cases step_move h with
    | illegal hport | cfg hport | encZero hport | enc hport => exact .inr ⟨_, hport, rfl⟩
    | reset | readStat | issue | ack | pass => exact .inl rfl
  rcases hcases with hsame | ⟨w, hport, htail⟩
  · exact ⟨.inl hsame, fun _ => hsame⟩
  · refine ⟨.inr ⟨hport.idle, hport.turn, w, htail ▸ hport.cmd_eq⟩, fun hbusy => ?_⟩
    rw [State.stat_busy, State.busy_eq_true] at hbusy
    exact absurd hport.idle hbusy

/-- Settles O40: with SEQ not Idle the effect of a turn neither reads nor writes HOST's words. -/
theorem runningCommandIgnoresCmdPort : Obligations.RunningCommandIgnoresCmdPort := by
  intro s t words hbusy h
  rw [step_eq_turnEffect, Host.Outcome.next.injEq] at h
  have hother := turnEffect_withCmd (t := s.nextTurn) (fun _ => hbusy) (s.withCmd words).presented s.presented words
    s.popTurn
  rw [h] at hother
  exact (step_eq_turnEffect (s.withCmd words)).trans (congrArg _ hother)

/-- Settles O41: of the steps, only reset and the commands write a register. -/
theorem onlyTheBlockWritesTransport : Obligations.OnlyTheBlockWritesTransport := by
  intro s t h hchange
  cases step_move h with
  | reset hturn => exact .inl hturn
  | cfg hport hw | encZero hport hw | enc hport hw => exact .inr ⟨hport.idle, hport.turn, _, _, hport.word, hw⟩
  | illegal => simp at hchange
  | readStat | issue | ack | pass => simp at hchange

/-- Settles O48: a step adds nothing, a configuration, or one transaction. -/
theorem traceGrowsByEmittableEvents : Obligations.TraceGrowsByEmittableEvents := by
  intro s t h hreset
  rcases step_trace_cases hreset h with hsame | ⟨-, f, d, hconf⟩ | ⟨pos, half, -, rfl⟩
  · exact ⟨[], by rw [hsame, List.append_nil], by simp, by simp⟩
  · exact ⟨_, hconf, le_refl 2, configuration_emittable f d⟩
  · refine ⟨_, State.stepIssue_trace .., by simp, fun e he => ?_⟩
    rw [List.mem_singleton.mp he]
    exact burstEvent_emittable _ _ _

/-- Settles O29: a busy block writes nothing of the carrier, and its only event is the issue step's. -/
theorem runningCommandOnlyTransmits : Obligations.RunningCommandOnlyTransmits := by
  intro s t hbusy hreset h
  obtain ⟨hclk, hmode, hstatus, hdata, hlen⟩ := step_of_busy_frame hbusy hreset h
  refine ⟨hclk, hmode, hstatus, hdata, hlen, ?_⟩
  rcases step_trace_cases hreset h with hsame | ⟨hidle, -⟩ | ⟨pos, half, -, rfl⟩
  · exact .inl hsame
  · exact absurd hidle hbusy
  · exact .inr ⟨_, pat_uniform _ _, State.stepIssue_trace ..⟩

/-- Settles O30: one event that is a transaction comes from the issue step only, and `Wait` ends by ACK or reset. -/
theorem oneTransactionOutstanding : Obligations.OneTransactionOutstanding := by
  intro s t h
  refine ⟨fun n p htrace => ?_, fun hflight hack hreset => ?_, fun hflight hack => ?_⟩
  · have hreset : s.nextTurn ≠ .reset := by
      intro hturn
      rw [step_of_reset hturn] at h
      cases h
      simp at htrace
    rcases step_trace_cases hreset h with hsame | ⟨-, f, d, hconf⟩ | ⟨pos, half, hissue, rfl⟩
    · simp [hsame] at htrace
    · simp [hconf] at htrace
    · obtain ⟨rfl, rfl⟩ : Config.burstBits = n ∧ pat (bitAt s.dataL pos) half = p := by
        simpa [burstEvent] using htrace
      refine ⟨?_, ⟨pos, half, hissue, rfl⟩, State.inFlight_of_wait rfl⟩
      rw [State.inFlight, hissue]
  · obtain ⟨pos, half, hwait⟩ := s.inFlight_ne_none_iff.mp hflight
    obtain ⟨hclk, hmode, -, hdata, -⟩ := step_of_busy_frame (by simp [hwait]) hreset h
    exact State.inFlight_congr (step_keeps_wait hwait hack hreset h) hdata hclk hmode
  · obtain ⟨pos, half, hwait⟩ := s.inFlight_ne_none_iff.mp hflight
    rw [step_of_ack hwait hack] at h
    cases h
    exact ⟨State.stepAck_inFlight _ _ _, rfl⟩

end Sys2Proof.Proofs
end

section
/-! PROOFS of the block's invariant (10_state.md, 41_pulse_encoder.md): each operation keeps it, so every step does; and
what it says of the transaction in flight. -/

namespace Sys2Proof.Machine

/-! ### SEQ's position in the burst sequence (R27, R74) -/

theorem State.posBelowLen_of_issue {s : State} {pos : Nat} {half : Fin 2} (h : s.seq = .issue pos half) :
    s.posBelowLen ↔ pos < s.lenL := by
  simp only [State.posBelowLen, h]

theorem State.posBelowLen_of_wait {s : State} {pos : Nat} {half : Fin 2} (h : s.seq = .wait pos half) :
    s.posBelowLen ↔ pos < s.lenL := by
  simp only [State.posBelowLen, h]

theorem State.posBelowLen_of_idle {s : State} (h : s.seq = .idle) : s.posBelowLen := by
  simp only [State.posBelowLen, h]

theorem State.issued_of_issue {s : State} {pos : Nat} {half : Fin 2} (h : s.seq = .issue pos half) :
    s.issued = 2 * (s.lenL - 1 - pos) + half.val := by
  simp only [State.issued, h]

theorem State.issued_of_wait {s : State} {pos : Nat} {half : Fin 2} (h : s.seq = .wait pos half) :
    s.issued = 2 * (s.lenL - 1 - pos) + half.val + 1 := by
  simp only [State.issued, h]

/-- The transaction SEQ stands at is the next one of the burst sequence. -/
theorem take_burstSeq_succ (data : Word) {pos len : Nat} (hpos : pos < len) (half : Fin 2) :
    (burstSeq data len).take (2 * (len - 1 - pos) + half.val + 1) =
      (burstSeq data len).take (2 * (len - 1 - pos) + half.val) ++ [burstEvent data pos half] := by
  rw [List.take_add_one, burstSeq_getElem? data hpos half, Option.toList_some]

/-- The three places an acknowledgement can lead to: the second half, Idle after bit 0, the next bit (R77). -/
theorem seqAfterAck_cases (pos : Nat) (half : Fin 2) :
    (half = 0 ∧ seqAfterAck pos half = .issue pos 1) ∨
    (half = 1 ∧ pos = 0 ∧ seqAfterAck pos half = .idle) ∨
    (half = 1 ∧ 0 < pos ∧ seqAfterAck pos half = .issue (pos - 1) 0) := by
  match half, pos with
  | 0, _ => exact .inl ⟨rfl, rfl⟩
  | 1, 0 => exact .inr (.inl ⟨rfl, rfl, rfl⟩)
  | 1, _ + 1 => exact .inr (.inr ⟨rfl, Nat.succ_pos _, rfl⟩)

/-- An acknowledgement that does not end the command leaves the count of transactions issued. -/
theorem State.stepAck_issued {s : State} {pos : Nat} {half : Fin 2} (hwait : s.seq = .wait pos half)
    (hpos : pos < s.lenL) (hbusy : seqAfterAck pos half ≠ .idle) : (s.stepAck pos half).issued = s.issued := by
  rw [State.issued_of_wait hwait]
  rcases seqAfterAck_cases pos half with ⟨rfl, h⟩ | ⟨-, -, h⟩ | ⟨rfl, hlt, h⟩
  · exact State.issued_of_issue (s := s.stepAck pos 0) h
  · exact absurd h hbusy
  · rw [State.issued_of_issue h, State.stepAck_lenL]
    simp only [Fin.val_zero, Fin.val_one]
    omega

theorem State.stepAck_posBelowLen {s : State} {pos : Nat} (half : Fin 2) (hpos : pos < s.lenL) :
    (s.stepAck pos half).posBelowLen := by
  rcases seqAfterAck_cases pos half with ⟨-, h⟩ | ⟨-, -, h⟩ | ⟨-, -, h⟩
  · exact (State.posBelowLen_of_issue h).mpr hpos
  · exact State.posBelowLen_of_idle h
  · exact (State.posBelowLen_of_issue h).mpr (lt_of_le_of_lt (Nat.sub_le _ _) hpos)

/-! ### Each operation keeps the invariant -/

/-- The invariant reads neither STATUS nor the environment. -/
theorem State.Inv.withStatusEnv {s : State} (h : s.Inv) (st : Status) (e : Env) :
    ({ s with status := st, env := e } : State).Inv :=
  ⟨h.lenBound, h.posBound, h.regsReplay, h.eventsEmittable, h.inProgress⟩

theorem State.Inv.popTurn {s : State} (h : s.Inv) : s.popTurn.Inv := h.withStatusEnv _ _

theorem State.Inv.popCmd {s : State} (h : s.Inv) : s.popCmd.Inv := h.withStatusEnv _ _

theorem State.Inv.readStat {s : State} (h : s.Inv) : s.readStat.Inv := h.withStatusEnv _ _

theorem State.Inv.raiseFault {s : State} (h : s.Inv) (k : FaultBit) : (s.raiseFault k).Inv := by
  cases k with
  | illegal => exact h.withStatusEnv _ _
  | undefLen => exact h.withStatusEnv _ _

theorem State.reset_inv : State.reset.Inv where
  lenBound := Nat.zero_le _
  posBound := trivial
  regsReplay := rfl
  eventsEmittable := fun _ he => absurd he List.not_mem_nil
  inProgress := fun hbusy => absurd rfl hbusy

theorem State.resetBlock_inv (s : State) : s.resetBlock.Inv := State.reset_inv.withStatusEnv _ s.env

theorem State.Inv.configure {s : State} (h : s.Inv) (hidle : s.seq = .idle) (f d : Byte) : (s.configure f d).Inv where
  lenBound := h.lenBound
  posBound := State.posBelowLen_of_idle hidle
  regsReplay := by
    rw [State.configure, State.wrclk_trace, State.wrmode_trace, replayRegs_append, replayRegs_append, h.regsReplay]
    rfl
  eventsEmittable := by
    intro e he
    rw [State.configure_trace] at he
    rcases List.mem_append.mp he with he | he
    · exact h.eventsEmittable e he
    · exact configuration_emittable f d e he
  inProgress := fun hbusy => absurd hidle hbusy

/-- The start of a command: no transaction is issued yet, so the trace ends with the configuration. -/
theorem State.Inv.startEnc {s : State} (h : s.Inv) (hidle : s.seq = .idle) (f d : Byte) (data : Word) {len : Nat}
    (hpos : 1 ≤ len) (hle : len ≤ 32) :
    (((s.configure f d).latch data len).setSeq (.issue (len - 1) 0)).Inv where
  lenBound := hle
  posBound := Nat.sub_lt hpos Nat.one_pos
  regsReplay := (h.configure hidle f d).regsReplay
  eventsEmittable := (h.configure hidle f d).eventsEmittable
  inProgress := by
    intro _
    refine ⟨s.trace, f, d, ?_⟩
    rw [State.issued_of_issue rfl, State.setSeq_lenL, State.latch_lenL, Nat.sub_self, Fin.val_zero, List.take_zero,
      List.append_nil]
    exact s.configure_trace f d

theorem State.Inv.stepIssue {s : State} (h : s.Inv) {pos : Nat} {half : Fin 2} (hseq : s.seq = .issue pos half) :
    (s.stepIssue pos half).Inv := by
  have hpos : pos < s.lenL := (State.posBelowLen_of_issue hseq).mp h.posBound
  refine ⟨h.lenBound, hpos, ?_, fun e he => ?_, fun _ => ?_⟩
  · rw [State.stepIssue_trace, replayRegs_append, h.regsReplay]
    rfl
  · rw [State.stepIssue_trace] at he
    rcases List.mem_append.mp he with he | he
    · exact h.eventsEmittable e he
    · rw [List.mem_singleton.mp he]
      exact burstEvent_emittable _ _ _
  · obtain ⟨before, f, d, htrace⟩ := h.inProgress (by simp [hseq])
    rw [State.issued_of_issue hseq] at htrace
    refine ⟨before, f, d, ?_⟩
    rw [State.issued_of_wait rfl, State.stepIssue_trace, htrace, State.stepIssue_dataL, State.stepIssue_lenL,
      take_burstSeq_succ _ hpos, ← List.append_assoc]

theorem State.Inv.stepAck {s : State} (h : s.Inv) {pos : Nat} {half : Fin 2} (hseq : s.seq = .wait pos half) :
    (s.stepAck pos half).Inv := by
  have hpos : pos < s.lenL := (State.posBelowLen_of_wait hseq).mp h.posBound
  refine ⟨h.lenBound, State.stepAck_posBelowLen half hpos, h.regsReplay, h.eventsEmittable, fun hbusy => ?_⟩
  rw [State.stepAck_issued hseq hpos hbusy]
  exact h.inProgress (by simp [hseq])

theorem State.Inv.step {s t : State} (h : s.Inv) (hstep : step s = .next t) : t.Inv := by
  cases step_move hstep with
  | reset => exact State.resetBlock_inv _
  | readStat => exact h.popTurn.readStat
  | illegal => exact h.popTurn.popCmd.raiseFault _
  | cfg hport => exact h.popTurn.popCmd.configure hport.idle _ _
  | encZero hport => exact (h.popTurn.popCmd.configure hport.idle _ _).raiseFault _
  | enc hport _ hpos hle => exact h.popTurn.popCmd.startEnc hport.idle _ _ _ hpos hle
  | issue _ hseq => exact h.popTurn.stepIssue hseq
  | ack _ hseq => exact h.popTurn.stepAck hseq
  | pass => exact h.popTurn

/-! ### The transaction in flight (R42) -/

/-- Transactions leave the registers as they are. -/
theorem foldl_receive_of_xfers {es : List Event} (h : ∀ e ∈ es, ∃ n p, e = .xfer n p) (r : TransportRegs) :
    es.foldl TransportRegs.receive r = r := by
  induction es with
  | nil => rfl
  | cons e es ih =>
    obtain ⟨n, p, rfl⟩ := h e List.mem_cons_self
    exact ih fun e he => h e (List.mem_cons_of_mem _ he)

/-- A configuration and some transactions of a burst sequence leave the registers the configuration wrote. -/
theorem replayRegs_of_command (before : List Event) (m : Byte) (v data : Word) (len n : Nat) :
    replayRegs (before ++ [.wrmode m, .wrclk v] ++ (burstSeq data len).take n) = { clkdiv := v, tmode := m } := by
  have hxfers : ∀ e ∈ (burstSeq data len).take n, ∃ n p, e = .xfer n p := by
    intro e he
    obtain ⟨pos, half, rfl⟩ := mem_burstSeq (List.mem_of_mem_take he)
    exact ⟨_, _, rfl⟩
  rw [replayRegs, List.foldl_append, foldl_receive_of_xfers hxfers, List.foldl_append]
  rfl

/-- The last transaction of a trace that ends with an XFER runs under the registers the whole trace leaves. -/
theorem performed_getLast?_of_xfer (es : List Event) (n : Count) (p : Word) :
    (performed (es ++ [.xfer n p])).getLast? = some
      { count := n
        pattern := p
        clkdiv := (replayRegs (es ++ [.xfer n p])).clkdiv
        tmode := (replayRegs (es ++ [.xfer n p])).tmode } := by
  rw [performed, performedFrom_append, replayRegs_append, TransportRegs.receive_xfer, performedFrom_xfer,
    performedFrom_nil, List.getLast?_concat]
  rfl

end Sys2Proof.Machine

namespace Sys2Proof.Proofs

open Sys2Proof.Machine

/-- Settles O50: every operation a step consists of keeps the invariant. -/
theorem stepKeepsInvariant : Obligations.StepKeepsInvariant :=
  fun _ _ hinv hstep => hinv.step hstep

/-- Settles O49: the reset state has an empty trace and runs no command. -/
theorem resetMeetsInvariant : Obligations.ResetMeetsInvariant := State.reset_inv

/-- Settles O32: in `Wait` the trace ends with the transaction of SEQ's half of SEQ's bit, and between it and its
command's configuration no register is written. -/
theorem transactionUnderOwnCarrier : Obligations.TransactionUnderOwnCarrier := by
  intro s x hinv hflight
  obtain ⟨pos, half, hwait⟩ := s.inFlight_ne_none_iff.mp (by simp [hflight])
  have hpos : pos < s.lenL := (State.posBelowLen_of_wait hwait).mp hinv.posBound
  obtain ⟨before, f, d, htrace⟩ := hinv.inProgress (by simp [hwait])
  have hregs := hinv.regsReplay
  have hlast : ∃ es, s.trace = es ++ [burstEvent s.dataL pos half] :=
    ⟨_, by rw [htrace, State.issued_of_wait hwait, take_burstSeq_succ _ hpos, ← List.append_assoc]⟩
  obtain ⟨hclk, hmode⟩ : clkdivOf f d = s.clkdiv ∧ Config.tmodeValue = s.tmode := by
    rw [htrace, replayRegs_of_command] at hregs
    exact TransportRegs.mk.inj hregs
  rw [State.inFlight_of_wait hwait] at hflight
  cases hflight
  refine ⟨?_, rfl, hmode.symm, before, f, d, htrace, hclk.symm⟩
  obtain ⟨es, hes⟩ := hlast
  rw [hes, burstEvent] at hregs ⊢
  rw [performed_getLast?_of_xfer, hregs]

end Sys2Proof.Proofs
end

section
/-! PROOFS about runs of one system (60_exceptions.md, 45_transport_interface.md, 41_pulse_encoder.md): the fault bits
along a run, the wait without an acknowledgement, and a whole ENC command. -/

namespace Sys2Proof.Machine

/-! ### The turns along a run -/

/-- Every step takes one turn from the list. -/
theorem step_turns {s t : State} (h : step s = .next t) : t.env.turns = s.env.turns.tail := by
  cases step_move h with
  | illegal | cfg | encZero | enc => rfl
  | reset | readStat | issue | ack | pass => rfl

/-- A property of the first turns listed, and of the two default turns, holds of the turn taken now and of the turns
listed first after it. -/
theorem turns_after_step {P : Turn → Prop} {s t : State} {k : Nat} (hhost : P .host) (hblock : P .block)
    (hturns : ∀ τ ∈ s.env.turns.take (k + 1), P τ) (h : step s = .next t) :
    P s.nextTurn ∧ ∀ τ ∈ t.env.turns.take k, P τ := by
  refine ⟨nextTurn_induction hhost hblock fun τ hτ => hturns τ ?_, fun τ hτ => hturns τ ?_⟩
  · exact List.take_subset_take_left _ (Nat.le_add_left 1 k) hτ
  · rw [step_turns h] at hτ
    cases hlist : s.env.turns with
    | nil => rw [hlist] at hτ; exact absurd hτ (by simp)
    | cons τ₀ τs => rw [hlist] at hτ; exact List.mem_cons_of_mem _ hτ

/-! ### The fault bits along a run (R102, R104) -/

/-- Before a step that ends with no fault bit set, none was set. -/
theorem noFault_of_step {s t : State} (hreset : s.nextTurn ≠ .reset) (h : step s = .next t) (ht : t.noFault) :
    s.noFault := by
  obtain ⟨hillegal, hundef⟩ := step_keeps_faults hreset h
  obtain ⟨htillegal, htundef⟩ := ht
  refine ⟨Bool.eq_false_of_not_eq_true fun hs => ?_, Bool.eq_false_of_not_eq_true fun hs => ?_⟩
  · exact absurd (hillegal hs) (by simp [htillegal])
  · exact absurd (hundef hs) (by simp [htundef])

theorem run_keeps_faults {k : Nat} {s t : State} (h : run k s = .next t)
    (hturns : ∀ τ ∈ s.env.turns.take k, τ ≠ .reset) :
    (s.status.illegal = true → t.status.illegal = true) ∧ (s.status.undefLen = true → t.status.undefLen = true) := by
  induction k generalizing s with
  | zero => cases h; exact ⟨id, id⟩
  | succ k ih =>
    obtain ⟨u, hstep, hrun⟩ := run_succ_cases h
    obtain ⟨hnow, hlater⟩ := turns_after_step (by decide) (by decide) hturns hstep
    obtain ⟨hillegal, hundef⟩ := step_keeps_faults hnow hstep
    obtain ⟨hillegal', hundef'⟩ := ih hrun hlater
    exact ⟨hillegal' ∘ hillegal, hundef' ∘ hundef⟩

/-- A run that ends with no fault bit set has passed through no state with one. -/
theorem run_noFault_before {k : Nat} {s t : State} (h : run k s = .next t)
    (hturns : ∀ τ ∈ s.env.turns.take k, τ ≠ .reset) (ht : t.noFault) {j : Nat} (hj : j ≤ k) :
    ∃ u, run j s = .next u ∧ u.noFault := by
  induction k generalizing s j with
  | zero => cases Nat.le_zero.mp hj; exact ⟨t, h, ht⟩
  | succ k ih =>
    obtain ⟨u, hstep, hrun⟩ := run_succ_cases h
    obtain ⟨hnow, hlater⟩ := turns_after_step (by decide) (by decide) hturns hstep
    cases j with
    | zero =>
      obtain ⟨v, hv, hfault⟩ := ih hrun hlater (Nat.zero_le k)
      cases hv
      exact ⟨s, rfl, noFault_of_step hnow hstep hfault⟩
    | succ j =>
      obtain ⟨v, hv, hfault⟩ := ih hrun hlater (Nat.le_of_succ_le_succ hj)
      exact ⟨v, (run_succ_of_step hstep).trans hv, hfault⟩

/-! ### What a running command leaves -/

/-- `t` is `s` with SEQ at `q`, these events added and these turns left; HOST may have read STAT on the way. -/
structure Progress (s t : State) (q : Seq) (events : List Event) (turns : List Turn) : Prop where
  cmd : t.env.cmd = s.env.cmd
  turns : t.env.turns = turns
  block : t = { s with seq := q, trace := s.trace ++ events, env := t.env }

namespace Progress

variable {s t u : State} {q q' : Seq} {es es' : List Event} {ts ts' : List Turn}

theorem refl (s : State) : Progress s s s.seq [] s.env.turns :=
  ⟨rfl, rfl, by rw [List.append_nil]⟩

theorem seq_eq (h : Progress s t q es ts) : t.seq = q := by rw [h.block]

theorem dataL_eq (h : Progress s t q es ts) : t.dataL = s.dataL := by rw [h.block]

theorem trans (h : Progress s t q es ts) (h' : Progress t u q' es' ts') : Progress s u q' (es ++ es') ts' where
  cmd := h'.cmd.trans h.cmd
  turns := h'.turns
  block := by
    obtain ⟨-, -, hblock⟩ := h
    rw [h'.block, hblock, ← List.append_assoc]

end Progress

/-! ### Waiting (R77, R88) -/

/-- In `Wait` a quiet turn changes the turns left and what HOST has read. -/
theorem step_wait_quiet {s t : State} {pos : Nat} {half : Fin 2} (hwait : s.seq = .wait pos half)
    (hquiet : s.nextTurn.quiet) (h : step s = .next t) : Progress s t s.seq [] s.env.turns.tail := by
  obtain ⟨hack, hreset⟩ := hquiet
  refine ⟨?_, step_turns h, ?_⟩ <;> cases step_move h with
  | reset hturn => exact absurd hturn hreset
  | illegal hport | cfg hport | encZero hport | enc hport => exact absurd (hwait.symm.trans hport.idle) nofun
  | issue _ hseq => exact absurd (hwait.symm.trans hseq) nofun
  | ack hturn => exact absurd hturn hack
  | readStat | pass => simp [State.readStat, State.popTurn]

theorem run_wait_quiet {k : Nat} {s : State} {pos : Nat} {half : Fin 2} (hwait : s.seq = .wait pos half)
    (hquiet : ∀ τ ∈ s.env.turns.take k, τ.quiet) :
    ∃ t, run k s = .next t ∧ Progress s t s.seq [] (s.env.turns.drop k) := by
  induction k generalizing s with
  | zero => exact ⟨s, rfl, Progress.refl s⟩
  | succ k ih =>
    have hstep := step_eq_turnEffect s
    obtain ⟨hnow, hlater⟩ := turns_after_step (by simp [Turn.quiet]) (by simp [Turn.quiet]) hquiet hstep
    have hfirst := step_wait_quiet hwait hnow hstep
    obtain ⟨t, hrun, hrest⟩ := ih (hfirst.seq_eq.trans hwait) hlater
    refine ⟨t, (run_succ_of_step hstep).trans hrun, ?_⟩
    rw [hfirst.seq_eq, hfirst.turns, List.drop_tail] at hrest
    exact hfirst.trans hrest

/-! ### One transaction, and all of a command (R76, R77) -/

/-- The turns of one transaction: BLOCK issues it, some turns pass, TRANSPORT acknowledges it. -/
def transactionTurns (ts : List Turn) : List Turn := .block :: (ts ++ [.transport])

theorem transactionTurns_length (ts : List Turn) : (transactionTurns ts).length = ts.length + 2 := by
  simp [transactionTurns]

theorem ackSchedule_eq (waits : List (List Turn)) : ackSchedule waits = .host :: waits.flatMap transactionTurns := rfl

/-- BLOCK's turn in `Issue` is the issue step. -/
theorem step_of_issue {s : State} {pos : Nat} {half : Fin 2} (hissue : s.seq = .issue pos half)
    (hturn : s.nextTurn = .block) : step s = .next (s.popTurn.stepIssue pos half) := by
  rw [step, stepTurn, hturn]
  exact blockTurn_of_issue hissue

theorem run_transaction {s : State} {pos : Nat} {half : Fin 2} {ts rest : List Turn}
    (hissue : s.seq = .issue pos half) (hquiet : ∀ τ ∈ ts, τ.quiet)
    (hturns : s.env.turns = transactionTurns ts ++ rest) :
    ∃ t, run (transactionTurns ts).length s = .next t ∧
      Progress s t (seqAfterAck pos half) [burstEvent s.dataL pos half] rest := by
  have hlist : s.env.turns = .block :: (ts ++ .transport :: rest) := by
    rw [hturns, transactionTurns, List.cons_append, List.append_assoc, List.singleton_append]
  have hstep := step_of_issue hissue (nextTurn_of_turns_cons hlist)
  have hissued : Progress s (s.popTurn.stepIssue pos half) (.wait pos half) [burstEvent s.dataL pos half]
      (ts ++ .transport :: rest) := ⟨rfl, congrArg List.tail hlist, rfl⟩
  obtain ⟨u, hrun, hwaited⟩ := run_wait_quiet (k := ts.length) hissued.seq_eq
    (by rw [hissued.turns, List.take_left]; exact hquiet)
  rw [hissued.turns, List.drop_left, hissued.seq_eq] at hwaited
  have hack := step_of_ack hwaited.seq_eq (nextTurn_of_turns_cons hwaited.turns)
  have hacked : Progress u (u.popTurn.stepAck pos half) (seqAfterAck pos half) [] rest := by
    refine ⟨rfl, congrArg List.tail hwaited.turns, ?_⟩
    rw [List.append_nil]
    rfl
  refine ⟨_, ?_, (hissued.trans hwaited).trans hacked⟩
  rw [transactionTurns_length, run_succ_of_step hstep, run_add hrun, run_succ_of_step hack, run_zero]

/-- SEQ with the `n` lowest bits of the command still to send. -/
def seqWithBitsLeft : Nat → Seq
  | 0 => .idle
  | pos + 1 => .issue pos 0

theorem seqWithBitsLeft_of_pos {n : Nat} (h : 1 ≤ n) : seqWithBitsLeft n = .issue (n - 1) 0 := by
  obtain ⟨pos, rfl⟩ := Nat.exists_eq_add_of_le' h
  rfl

/-- After the second half of bit `pos`, the bits below it are left. -/
theorem seqAfterAck_one (pos : Nat) : seqAfterAck pos 1 = seqWithBitsLeft pos := by
  cases pos <;> rfl

theorem run_burstPair {s : State} {pos : Nat} {ts ts' rest : List Turn} (hissue : s.seq = .issue pos 0)
    (hquiet : ∀ τ ∈ ts, τ.quiet) (hquiet' : ∀ τ ∈ ts', τ.quiet)
    (hturns : s.env.turns = transactionTurns ts ++ (transactionTurns ts' ++ rest)) :
    ∃ t, run ((transactionTurns ts).length + (transactionTurns ts').length) s = .next t ∧
      Progress s t (seqWithBitsLeft pos) (burstPair s.dataL pos) rest := by
  obtain ⟨u, hrun, hfirst⟩ := run_transaction hissue hquiet hturns
  obtain ⟨t, hrun', hsecond⟩ := run_transaction (half := 1) hfirst.seq_eq hquiet' hfirst.turns
  rw [seqAfterAck_one, hfirst.dataL_eq] at hsecond
  exact ⟨t, (run_add hrun).trans hrun', hfirst.trans hsecond⟩

/-- With `n` bits left and the turns for them, the run sends their burst pairs and ends in Idle. -/
theorem run_bursts {n : Nat} {s : State} {waits : List (List Turn)} {rest : List Turn}
    (hseq : s.seq = seqWithBitsLeft n) (hlen : waits.length = 2 * n) (hquiet : ∀ ts ∈ waits, ∀ τ ∈ ts, τ.quiet)
    (hturns : s.env.turns = waits.flatMap transactionTurns ++ rest) :
    ∃ t, run (waits.flatMap transactionTurns).length s = .next t ∧ Progress s t .idle (burstSeq s.dataL n) rest := by
  induction n generalizing s waits with
  | zero =>
    obtain rfl := List.eq_nil_of_length_eq_zero hlen
    have hidle : s.seq = .idle := hseq
    refine ⟨s, rfl, ?_⟩
    have hrefl := Progress.refl s
    rwa [hidle, hturns] at hrefl
  | succ n ih =>
    match waits, hlen with
    | ts :: ts' :: waits, hlen =>
      have hlen' : waits.length = 2 * n := by
        simp only [List.length_cons] at hlen
        omega
      obtain ⟨hts, hrest⟩ := List.forall_mem_cons.mp hquiet
      obtain ⟨hts', hwaits⟩ := List.forall_mem_cons.mp hrest
      simp only [List.flatMap_cons, List.append_assoc] at hturns
      obtain ⟨u, hrun, hpair⟩ := run_burstPair hseq hts hts' hturns
      obtain ⟨t, hrun', hlater⟩ := ih hpair.seq_eq hlen' hwaits hpair.turns
      rw [hpair.dataL_eq] at hlater
      refine ⟨t, ?_, burstSeq_succ s.dataL n ▸ hpair.trans hlater⟩
      rw [List.flatMap_cons, List.flatMap_cons, List.length_append, List.length_append, ← Nat.add_assoc]
      exact (run_add hrun).trans hrun'

/-- The accepting step of a legal ENC, from the command port on. -/
theorem step_of_enc {s : State} {f d : Byte} {len : Count} {data : Word} (hpos : 1 ≤ len.toNat) (hle : len.toNat ≤ 32)
    (hport : s.Presents (encode (.enc f d len data))) :
    step s = .next (((s.popTurn.popCmd.configure f d).latch data len.toNat).setSeq (.issue (len.toNat - 1) 0)) := by
  rw [step_of_presents hport, wordEffect_of_enc (decode_encode_enc f d hle data), State.acceptEnc_of_len hpos hle]

/-- With no turns passing, a command of `n` transactions takes one step and two for each of them. -/
theorem ackSchedule_replicate_length (n : Nat) : (ackSchedule (List.replicate n [])).length = 1 + 2 * n := by
  rw [ackSchedule_eq, List.length_cons, List.length_flatMap, List.map_replicate, List.sum_replicate,
    transactionTurns_length]
  simp only [List.length_nil, smul_eq_mul]
  omega

end Sys2Proof.Machine

namespace Sys2Proof.Proofs

open Sys2Proof.Machine

/-- Settles O37: no step of the run is a reset, and no other step clears a fault bit. -/
theorem faultBitsStayUntilReset : Obligations.FaultBitsStayUntilReset := by
  intro k s t h hturns
  obtain ⟨hillegal, hundef⟩ := run_keeps_faults h hturns
  exact ⟨hillegal, hundef, fun ht j hj => run_noFault_before h hturns ht hj⟩

/-- Settles O34: in `Wait` every quiet turn passes. -/
theorem waitsForeverWithoutAck : Obligations.WaitsForeverWithoutAck := by
  intro k s pos half hwait hquiet
  obtain ⟨t, hrun, hcmd, hturns, hblock⟩ := run_wait_quiet hwait hquiet
  rw [List.append_nil] at hblock
  exact ⟨t, hrun, fun _ => ⟨hcmd, hturns, hblock⟩⟩

/-- Settles O27: the accepting step leaves `len` bits to send, and each takes its pair of transactions. -/
theorem encRunEmitsBurstSequence : Obligations.EncRunEmitsBurstSequence := by
  refine ⟨fun s f d len data words waits rest hidle hpos hle hcmd hlen hquiet hturns => ?_, fun len => ?_⟩
  · have hport : s.Presents (encode (.enc f d len data)) :=
      ⟨hidle, nextTurn_of_turns_cons hturns, by rw [State.presented, hcmd]; rfl⟩
    obtain ⟨t, hrun, hprogress⟩ := run_bursts
      (s := ((s.popTurn.popCmd.configure f d).latch data len.toNat).setSeq (.issue (len.toNat - 1) 0))
      (seqWithBitsLeft_of_pos hpos).symm hlen hquiet (congrArg List.tail hturns)
    refine ⟨t, ?_, fun _ => ?_⟩
    · rw [ackSchedule_eq, List.length_cons, run_succ_of_step (step_of_enc hpos hle hport), hrun]
    · have htcmd : t.env.cmd = words := hprogress.cmd.trans (congrArg List.tail hcmd)
      have htrace : t.trace = s.trace ++ [.wrmode 0x41#8, .wrclk (clkdivOf f d)] ++ burstSeq data len.toNat := by
        rw [hprogress.block]
        simp
      refine ⟨?_, htrace, ?_, ?_, ?_, ?_, ?_, htcmd, hprogress.turns⟩ <;> rw [hprogress.block] <;> rfl
  · rw [ackSchedule_replicate_length]
    omega

end Sys2Proof.Proofs
end

section
/-! PROOFS about two runs under the same turns (10_state.md, 41_pulse_encoder.md, 70_reset_and_hazards.md): what two
states must share to have the same events, and that every step of both keeps it. -/

namespace Sys2Proof.Machine

/-- Steps go on in one way only, so a relation that steps keep, taken side by side, holds after runs of equal length. -/
theorem run_keeps_relation {R : State → State → Prop}
    (hstep : ∀ {s u s' u'}, R s u → step s = .next s' → step u = .next u' → R s' u')
    {k : Nat} {s u t v : State} (h : R s u) (hs : run k s = .next t) (hu : run k u = .next v) : R t v := by
  induction k generalizing s u with
  | zero => cases hs; cases hu; exact h
  | succ k ih =>
    obtain ⟨s', hs', hs⟩ := run_succ_cases hs
    obtain ⟨u', hu', hu⟩ := run_succ_cases hu
    exact ih (hstep h hs' hu') hs hu

/-! ### States that behave alike -/

/-- How many of the lowest bits of DATA_L the running command can still read. -/
def Seq.bitsLeft : Seq → Nat
  | .idle => 0
  | .issue pos _ => pos + 1
  | .wait pos _ => pos + 1

theorem seqAfterAck_bitsLeft_le (pos : Nat) (half : Fin 2) : (seqAfterAck pos half).bitsLeft ≤ pos + 1 := by
  rcases seqAfterAck_cases pos half with ⟨-, h⟩ | ⟨-, -, h⟩ | ⟨-, -, h⟩ <;> rw [h, Seq.bitsLeft]
  · exact Nat.zero_le _
  · omega

/-- Two states that agree in all a later event can depend on: of the latches only the bits of DATA_L still to be read
matter. The registers agree too where `regs` asks for it; no event depends on them. -/
structure State.Alike (regs : Prop) (s u : State) : Prop where
  status : u.status = s.status
  seq : u.seq = s.seq
  trace : u.trace = s.trace
  env : u.env = s.env
  bits : ∀ i < s.seq.bitsLeft, u.dataL.getLsbD i = s.dataL.getLsbD i
  clkdiv : regs → u.clkdiv = s.clkdiv
  tmode : regs → u.tmode = s.tmode

namespace State.Alike

variable {regs : Prop} {s u : State}

theorem refl (s : State) : Alike regs s s :=
  ⟨rfl, rfl, rfl, rfl, fun _ _ => rfl, fun _ => rfl, fun _ => rfl⟩

theorem nextTurn (h : Alike regs s u) : u.nextTurn = s.nextTurn := by
  rw [State.nextTurn, State.nextTurn, h.env, h.seq]

theorem presented (h : Alike regs s u) : u.presented = s.presented := by
  rw [State.presented, State.presented, h.env]

theorem stat (h : Alike regs s u) : u.stat = s.stat := by
  simp only [State.stat, State.busy, h.seq, h.status]

theorem noFault (h : Alike regs s u) (hs : s.noFault) : u.noFault := by
  rwa [State.noFault, h.status]

theorem popTurn (h : Alike regs s u) : Alike regs s.popTurn u.popTurn where
  __ := h
  env := by rw [State.popTurn_env, State.popTurn_env, h.env]

theorem popCmd (h : Alike regs s u) : Alike regs s.popCmd u.popCmd where
  __ := h
  env := by rw [State.popCmd_env, State.popCmd_env, h.env]

theorem readStat (h : Alike regs s u) : Alike regs s.readStat u.readStat where
  __ := h
  env := by rw [State.readStat_env, State.readStat_env, h.env, h.stat]

theorem raiseFault (h : Alike regs s u) (k : FaultBit) : Alike regs (s.raiseFault k) (u.raiseFault k) := by
  cases k with
  | illegal => exact { h with status := by simp [h.status] }
  | undefLen => exact { h with status := by simp [h.status] }

theorem configure (h : Alike regs s u) (f d : Byte) : Alike regs (s.configure f d) (u.configure f d) where
  __ := h
  trace := by rw [State.configure_trace, State.configure_trace, h.trace]
  clkdiv := fun _ => rfl
  tmode := fun _ => rfl

/-- A command that starts overwrites the latches; its DATA need agree only below its LEN. -/
theorem startEnc (h : Alike regs s u) {x y : Word} {len : Nat} (hpos : 1 ≤ len)
    (hbits : ∀ i < len, y.getLsbD i = x.getLsbD i) :
    Alike regs ((s.latch x len).setSeq (.issue (len - 1) 0)) ((u.latch y len).setSeq (.issue (len - 1) 0)) where
  __ := h
  seq := rfl
  bits := by
    intro i hi
    rw [State.setSeq_seq, Seq.bitsLeft, Nat.sub_add_cancel hpos] at hi
    exact hbits i hi

theorem acceptEnc (h : Alike regs s u) (f d : Byte) (len : Count) {x y : Word}
    (hbits : ∀ i < len.toNat, y.getLsbD i = x.getLsbD i) :
    Alike regs (s.acceptEnc f d len x) (u.acceptEnc f d len y) := by
  unfold State.acceptEnc
  split
  · exact h.raiseFault _
  · split
    · exact (h.configure f d).raiseFault _
    · exact (h.configure f d).startEnc (by omega) hbits

theorem wordEffect (h : Alike regs s u) (w : CmdWord) : Alike regs (wordEffect w s) (wordEffect w u) := by
  match hw : decode w with
  | .legal (.cfg f d) => rw [wordEffect_of_cfg hw]; exact h.configure f d
  | .legal (.enc f d len data) => rw [wordEffect_of_enc hw]; exact h.acceptEnc f d len fun _ _ => rfl
  | .illegal why => rw [wordEffect_of_illegal hw]; exact h.raiseFault _

/-- The transaction issued reads the highest of the bits left. -/
theorem stepIssue (h : Alike regs s u) {pos : Nat} {half : Fin 2} (hseq : s.seq = .issue pos half) :
    Alike regs (s.stepIssue pos half) (u.stepIssue pos half) where
  __ := h
  seq := rfl
  trace := by
    have hbit : u.dataL.getLsbD pos = s.dataL.getLsbD pos := h.bits pos (by rw [hseq]; exact Nat.lt_succ_self pos)
    rw [State.stepIssue_trace, State.stepIssue_trace, h.trace, burstEvent, burstEvent, bitAt, bitAt, hbit]
  bits := by
    intro i hi
    exact h.bits i (by rw [hseq]; exact hi)

theorem stepAck (h : Alike regs s u) {pos : Nat} {half : Fin 2} (hseq : s.seq = .wait pos half) :
    Alike regs (s.stepAck pos half) (u.stepAck pos half) where
  __ := h
  seq := rfl
  bits := by
    intro i hi
    exact h.bits i (by rw [hseq]; exact lt_of_lt_of_le hi (seqAfterAck_bitsLeft_le pos half))

theorem resetBlock (h : Alike regs s u) : Alike regs s.resetBlock u.resetBlock where
  __ := Alike.refl State.reset
  env := h.env

theorem turnEffect (h : Alike regs s u) (t : Turn) (o : Option CmdWord) :
    Alike regs (turnEffect t s.seq o s) (turnEffect t s.seq o u) := by
  cases t with
  | host =>
    cases hseq : s.seq with
    | idle =>
      cases o with
      | none => exact h
      | some w => exact h.popCmd.wordEffect w
    | issue | wait => exact h
  | hostStat => exact h.readStat
  | block =>
    cases hseq : s.seq with
    | issue pos half => exact h.stepIssue hseq
    | idle | wait => exact h
  | transport =>
    cases hseq : s.seq with
    | wait pos half => exact h.stepAck hseq
    | idle | issue => exact h
  | reset => exact h.resetBlock

theorem step {t v : State} (h : Alike regs s u) (hs : step s = .next t) (hu : step u = .next v) : Alike regs t v := by
  rw [step_eq_turnEffect, Host.Outcome.next.injEq] at hs hu
  rw [h.nextTurn, h.seq, h.presented] at hu
  subst hs hu
  exact h.popTurn.turnEffect s.nextTurn s.presented

theorem run {k : Nat} {t v : State} (h : Alike regs s u) (hs : run k s = .next t) (hu : run k u = .next v) :
    Alike regs t v :=
  run_keeps_relation Alike.step h hs hu

end State.Alike

/-! ### Two ENC words that differ above LEN (R72, R74) -/

/-- The two words have the same effect but for the bits of DATA_L at LEN and above. -/
theorem wordEffect_encode_alike {regs : Prop} (f d : Byte) {len : Count} {x y : Word}
    (hbits : ∀ i < len.toNat, y.getLsbD i = x.getLsbD i) (s : State) :
    State.Alike regs (wordEffect (encode (.enc f d len x)) s) (wordEffect (encode (.enc f d len y)) s) := by
  by_cases hle : len.toNat ≤ 32
  · rw [wordEffect_of_enc (decode_encode_enc f d hle x), wordEffect_of_enc (decode_encode_enc f d hle y)]
    exact (State.Alike.refl s).acceptEnc f d len hbits
  · obtain ⟨why, hx⟩ := decode_encode_enc_of_lt f d (Nat.lt_of_not_le hle) x
    obtain ⟨why', hy⟩ := decode_encode_enc_of_lt f d (Nat.lt_of_not_le hle) y
    rw [wordEffect_of_illegal hx, wordEffect_of_illegal hy]
    exact State.Alike.refl _

/-- Two Idle states alike but for the first word HOST holds, `v` in one and `w` in the other. -/
structure DifferInWord (v w : CmdWord) (words : List CmdWord) (s u : State) : Prop where
  idle : s.seq = .idle
  cmd : s.env.cmd = v :: words
  other : u = s.withCmd (w :: words)

/-- While SEQ is Idle no turn but HOST's takes a word or starts a command. -/
theorem step_idle_not_host {s t : State} (hidle : s.seq = .idle) (hhost : s.nextTurn ≠ .host)
    (h : step s = .next t) : t.seq = .idle ∧ t.env.cmd = s.env.cmd := by
  cases step_move h with
  | reset => exact ⟨rfl, rfl⟩
  | readStat | pass => exact ⟨hidle, rfl⟩
  | illegal hport | cfg hport | encZero hport | enc hport => exact absurd hport.turn hhost
  | issue _ hseq | ack _ hseq => exact absurd (hidle.symm.trans hseq) nofun

/-- Until HOST presents its word the two states differ in it only; then both words take effect on one state. -/
theorem DifferInWord.step {v w : CmdWord} {words : List CmdWord} {s u t t' : State} (h : DifferInWord v w words s u)
    (hs : step s = .next t) (hu : step u = .next t') :
    DifferInWord v w words t t' ∨ ∃ r, t = wordEffect v r ∧ t' = wordEffect w r := by
  obtain ⟨hidle, hcmd, rfl⟩ := h
  by_cases hhost : s.nextTurn = .host
  · have hv : s.presented = some v := by rw [State.presented, hcmd]; rfl
    rw [step_of_presents ⟨hidle, hhost, hv⟩, Host.Outcome.next.injEq] at hs
    rw [step_of_presents (w := w) (s := s.withCmd (w :: words)) ⟨hidle, hhost, rfl⟩, Host.Outcome.next.injEq] at hu
    have hpop : (s.withCmd (w :: words)).popTurn.popCmd = s.popTurn.popCmd := by
      have htail : words = s.env.cmd.tail := by rw [hcmd, List.tail_cons]
      rw [htail]
      rfl
    exact .inr ⟨_, hs.symm, hpop ▸ hu.symm⟩
  · obtain ⟨htidle, htcmd⟩ := step_idle_not_host hidle hhost hs
    refine .inl ⟨htidle, htcmd.trans hcmd, ?_⟩
    rw [step_eq_turnEffect, Host.Outcome.next.injEq] at hs hu
    rw [← hs, ← hu]
    exact turnEffect_withCmd (fun hturn => absurd hturn hhost) _ _ (w :: words) s.popTurn

/-- The word is still on the command port of both, or they have taken it and are alike. -/
def DifferInWordOrAlike (v w : CmdWord) (words : List CmdWord) (s u : State) : Prop :=
  DifferInWord v w words s u ∨ State.Alike False s u

theorem DifferInWordOrAlike.step {v w : CmdWord} {words : List CmdWord}
    (hwords : ∀ r, State.Alike False (wordEffect v r) (wordEffect w r)) {s u t t' : State}
    (h : DifferInWordOrAlike v w words s u) (hs : step s = .next t) (hu : step u = .next t') :
    DifferInWordOrAlike v w words t t' := by
  rcases h with h | h
  · rcases h.step hs hu with h | ⟨r, rfl, rfl⟩
    · exact .inl h
    · exact .inr (hwords r)
  · exact .inr (h.step hs hu)

/-! ### The latches (R28) -/

/-- Only an accepted ENC writes the latches, with its DATA and LEN. -/
theorem step_latch_cases {s t : State} (hreset : s.nextTurn ≠ .reset) (h : step s = .next t) :
    (t.dataL = s.dataL ∧ t.lenL = s.lenL) ∨
    ∃ w f d len, s.Presents w ∧ decode w = .legal (.enc f d len t.dataL) ∧ t.lenL = len.toNat := by
  cases step_move h with
  | reset hturn => exact absurd hturn hreset
  | enc hport hw => exact .inr ⟨_, _, _, _, hport, hw, rfl⟩
  | readStat | illegal | cfg | encZero | issue | ack | pass => exact .inl ⟨rfl, rfl⟩

/-! ### The output at reset (R109) -/

/-- With H = 0 SCLK is never high. -/
theorem sclk_of_clkH_zero {v : Word} (h : clkH v = 0#8) (k tick : Nat) : sclk v k tick = false := by
  have hhigh : highTicks v = 0 := by rw [highTicks, h]; rfl
  rw [sclk_of_le (by rw [h]; exact Nat.zero_le _), hhigh]
  exact decide_eq_false (Nat.not_lt_zero _)

end Sys2Proof.Machine

namespace Sys2Proof.Proofs

open Sys2Proof.Machine

/-- Settles O28: until the ENC is taken the two systems differ in its word only, and from then on they are alike. -/
theorem highDataBitsIgnored : Obligations.HighDataBitsIgnored := by
  intro s f d len x y words k t u hidle hbits hs hu ht
  have hwords : ∀ r,
      State.Alike False (wordEffect (encode (.enc f d len x)) r) (wordEffect (encode (.enc f d len y)) r) :=
    wordEffect_encode_alike f d fun i hi => (hbits i hi).symm
  have hstart : DifferInWord (encode (.enc f d len x)) (encode (.enc f d len y)) words
      (s.withCmd (encode (.enc f d len x) :: words)) (s.withCmd (encode (.enc f d len y) :: words)) :=
    ⟨hidle, rfl, rfl⟩
  rcases run_keeps_relation (DifferInWordOrAlike.step hwords) (.inl hstart) hs hu with ⟨-, -, rfl⟩ | h
  · exact ⟨rfl, rfl, ht⟩
  · exact ⟨h.trace.symm, h.seq.symm, h.noFault ht⟩

/-- Settles O43: CLKDIV = 0 has H = 0 and TMODE = 0 has the output phase off, and no event reads either register. -/
theorem resetValuesUnobservable : Obligations.ResetValuesUnobservable := by
  refine ⟨⟨rfl, rfl, ⟨rfl, rfl⟩, rfl, rfl, rfl, rfl, rfl, rfl, sclk_of_clkH_zero rfl, fun x k tick hx => ?_⟩,
    fun s v m k t u hs hu ht => ?_⟩
  · exact irOutput_of_doutDisabled (by rw [hx]; rfl) k tick
  · have hstart : State.Alike False s { s with clkdiv := v, tmode := m } :=
      ⟨rfl, rfl, rfl, rfl, fun _ _ => rfl, nofun, nofun⟩
    have hend := hstart.run hs hu
    exact ⟨hend.trace.symm, hend.seq.symm, hend.noFault ht⟩

/-- Settles O44: while SEQ is Idle no bit of DATA_L is left to read, and the next ENC overwrites both latches. -/
theorem latchesWrittenByEncOnly : Obligations.LatchesWrittenByEncOnly := by
  refine ⟨fun s t h hreset => ?_, fun s x n k t u hidle hs hu ht => ?_⟩
  · rcases step_latch_cases hreset h with hsame | ⟨w, f, d, len, hport, hw, hlen⟩
    · exact .inl hsame
    · exact .inr ⟨hport.idle, hport.turn, w, f, d, len, hport.word, hw, hlen⟩
  · have hbits : ∀ i < s.seq.bitsLeft, x.getLsbD i = s.dataL.getLsbD i := by
      rw [hidle]
      exact fun i hi => absurd hi (Nat.not_lt_zero i)
    have hstart : State.Alike True s { s with dataL := x, lenL := n } :=
      ⟨rfl, rfl, rfl, rfl, hbits, fun _ => rfl, fun _ => rfl⟩
    have hend := hstart.run hs hu
    exact ⟨hend.trace.symm, hend.seq.symm, (hend.clkdiv trivial).symm, (hend.tmode trivial).symm, hend.noFault ht⟩

end Sys2Proof.Proofs
end
